-- ==== Sys2Proof/Word.lean ====
section
/-! DEFINITION. The two widths of the MB5016: bytes and 16-bit words (R7, R20, R47). -/

namespace Sys2Proof

/-- A byte, 8 bits (R20). -/
abbrev Byte := BitVec 8

/-- A register value, an address or a 16-bit datum (R7, R20, R47). -/
abbrev Word := BitVec 16

end Sys2Proof
end

