-- ==== Sys2Proof/Config.lean ====
section
/-! DEFINITION. What the build of the computer fixes (R4 to R6) and the free values: constants without a body, which no
proof can evaluate, standing for every value the spec leaves open (its "draws", R10). -/

namespace Sys2Proof

/-- The instructions the spec calls optional: defined, with an opcode, and not executed by this hardware (R5, C1, U14). -/
inductive OptionalInstr where
  | ddsto | exchNF | ldisx | ldxNFis | mulss | mulsu | mulus | muluu | neg
  deriving DecidableEq, Repr

/-- The parameters of the build that a claim may vary. `implemented` lists the optional instructions the hardware
executes (R5, log 14); `romRange` is the interval, ends included, that the CPU cannot write (R6, R76, log 15). -/
structure Params where
  implemented : List OptionalInstr
  romRange : Option (Word × Word)
  deriving DecidableEq, Repr

/-- A colour of the display: one bit per channel (R266). -/
structure Colour where
  red : Bool
  green : Bool
  blue : Bool
  deriving DecidableEq, Repr, Inhabited

/-- The system parameters, with the values of the spec's table as default (R4). They are fixed values of the FPGA build
(R289, the last paragraph of 92_eei_decisions.md), so State does not hold them. -/
structure SystemParameters where
  /-- `ADDR_MAX`, the last address of the address space. -/
  addrMax : Word := 0xffff
  /-- `CLK_ADDR`, the low byte of the system clock counter (R74, D18). -/
  clkAddr : Word := 0xfff0
  /-- `CPU_HZ`; the model is untimed, so no step uses it (R294, log 25). -/
  cpuHz : Nat := 50000000
  /-- `HZ`, ticks of the system clock per second (R257); no step uses it (log 25). -/
  hz : Nat := 100
  /-- `KBD_ADDR`, the first keyboard register (R73). -/
  kbdAddr : Word := 0xffe0
  /-- `MEM_MAX`, the address of the last byte of RAM (R71, C2). -/
  memMax : Word := 0x752f
  /-- `VIDEO_ADDR`, the start of the video memory (R72). -/
  videoAddr : Word := 0x5a00
  deriving DecidableEq, Repr

namespace Config

/-- This computer's system parameters: every one at its default (R4). -/
def system : SystemParameters := {}

/-- This hardware: no optional instruction (R5, C1, D1), no ROM (R6, D6). -/
def thisHardware : Params := { implemented := [], romRange := none }

/-- `ADDR_MAX` of this computer (R4). -/
def addrMax : Word := system.addrMax

/-- `MEM_MAX` of this computer (R4). -/
def memMax : Word := system.memMax

/-- `VIDEO_ADDR` of this computer (R4). -/
def videoAddr : Word := system.videoAddr

/-- `KBD_ADDR` of this computer (R4). -/
def kbdAddr : Word := system.kbdAddr

/-- `CLK_ADDR` of this computer (R4). -/
def clkAddr : Word := system.clkAddr

/-- A flag the spec leaves unspecified (U1 to U4, R10 `any1`), one for every draw (log 6). -/
opaque freeFlag : Nat → Bool

/-- The byte read at an address that gives no stated value: unmapped, or a device register that cannot be read
(R75, R263), one for every draw (log 7, log 11). -/
opaque freeByte : Nat → Word → Byte

/-- A 16-bit value the spec leaves open (R138, R195, R281), one for every draw (log 3, log 8, log 9). -/
opaque freeWord : Nat → Word

/-- The colour of a pixel whose attribute byte has bit 3 set (U11, log 24), from everything it can depend on in the video
memory and the display: column, row, attribute, bitmap bit, period byte, phase, frames counted. -/
opaque freeColour : Nat → Nat → Byte → Bool → Byte → Bool → Byte → Colour

/-- The colour of the border while a bit 7:3 of its byte is set (U11, log 24), from the byte, the phase and the frames
counted. -/
opaque freeBorder : Byte → Bool → Byte → Colour

/-- The first column of the 640 by 480 screen that the 512 columns of the framebuffer take (R266, log 24). -/
opaque windowLeft : Fin 129

/-- The first line of the screen that the 384 lines of the framebuffer take (R266, log 24). -/
opaque windowTop : Fin 97

/-- The assembler's current address before any `$addr` (R113, N27, log 30). -/
opaque asmStart : Word

/-- The assembler's result of a shift by 16 or more, to which C gives none: the shifted value and the count (R111,
log 30). -/
opaque asmWideShift : Word → Word → Word

/-- The byte of a `.bin` file at an address between two pieces of code, where no code stands (R114, log 30). -/
opaque asmGap : Nat → Byte

/-- The text of a `.mif` file, from the start address and the bytes of the `.bin` file: the same data in a form the spec
does not give (R114, N25, log 33). -/
opaque mifText : Word → List Byte → List Byte

/-- The address and size that the debugger's `save` takes when none are given, one for every draw (R274, log 34). -/
opaque saveRange : Nat → Word × Nat

end Config

end Sys2Proof
end

