-- ==== Sys2Proof/Syntax.lean ====
section
/-! DEFINITION. The whole instruction set as syntax: one constructor for each row of spec/opcode_table.json.
Constructors carry the register names of DSTR and SRCR (R91); every row has both fields (R104). -/

namespace Sys2Proof

/-- The sixteen registers by canonical name or alias (R21): `sp` is `r11`, `ca` `r12`, `ia` `r13`, `f` `r14`, `pc` `r15`. -/
inductive Reg where
  | r0 | r1 | r2 | r3 | r4 | r5 | r6 | r7 | r8 | r9 | r10 | sp | ca | ia | f | pc
  deriving DecidableEq, Repr

/-- The sixteen control and status registers (R37). -/
inductive Csr where
  | csr0 | csr1 | csr2 | csr3 | csr4 | csr5 | csr6 | csr7 | csr8 | csr9 | csr10 | csr11 | csr12 | csr13 | csr14 | csr15
  deriving DecidableEq, Repr

/-- One constructor for each row of the opcode table: 34 unconditional instructions (R97), five conditional families of
16 (R98 to R100) and the seven rows of unassigned opcodes (R102, R203), which carry the whole opcode byte. -/
inductive Instr where
  /-- `ill`, opcode 0x00 (R200). -/
  | ill (d s : Reg)
  /-- `add`, opcode 0x01 (R166). -/
  | add (d s : Reg)
  /-- `and`, opcode 0x02 (R170). -/
  | and (d s : Reg)
  /-- `csrr`, opcode 0x03 (R122). -/
  | csrr (d : Reg) (s : Csr)
  /-- `csrw`, opcode 0x04 (R123). -/
  | csrw (d : Csr) (s : Reg)
  /-- `dec1`, opcode 0x05 (R180). -/
  | dec1 (d s : Reg)
  /-- `dec2`, opcode 0x06 (R181). -/
  | dec2 (d s : Reg)
  /-- `exch`, opcode 0x07 (R121). -/
  | exch (d s : Reg)
  /-- `inc1`, opcode 0x08 (R178). -/
  | inc1 (d s : Reg)
  /-- `inc2`, opcode 0x09 (R179). -/
  | inc2 (d s : Reg)
  /-- `ld`, opcode 0x0a (R131). -/
  | ld (d s : Reg)
  /-- `ldb`, opcode 0x0b (R132). -/
  | ldb (d s : Reg)
  /-- `ldis`, opcode 0x0c (R133). -/
  | ldis (d s : Reg)
  /-- `ldisx`, opcode 0x0d (R134). -/
  | ldisx (d s : Reg)
  /-- `mv`, opcode 0x0e (R120). -/
  | mv (d s : Reg)
  /-- `neg`, opcode 0x0f (R182). -/
  | neg (d s : Reg)
  /-- `not`, opcode 0x10 (R173). -/
  | not (d s : Reg)
  /-- `or`, opcode 0x11 (R171). -/
  | or (d s : Reg)
  /-- `shl`, opcode 0x12 (R175). -/
  | shl (d s : Reg)
  /-- `shr`, opcode 0x13 (R176). -/
  | shr (d s : Reg)
  /-- `shra`, opcode 0x14 (R177). -/
  | shra (d s : Reg)
  /-- `sto`, opcode 0x15 (R135). -/
  | sto (d s : Reg)
  /-- `stob`, opcode 0x16 (R136). -/
  | stob (d s : Reg)
  /-- `ddsto`, opcode 0x17 (R137). -/
  | ddsto (d s : Reg)
  /-- `sub`, opcode 0x18 (R167). -/
  | sub (d s : Reg)
  /-- `cmpu`, opcode 0x19 (R169). -/
  | cmpu (d s : Reg)
  /-- `xor`, opcode 0x1a (R172). -/
  | xor (d s : Reg)
  /-- `cmps`, opcode 0x1b (R168). -/
  | cmps (d s : Reg)
  /-- `reti`, opcode 0x1c (R201). -/
  | reti (d s : Reg)
  /-- `rev`, opcode 0x1d (R174). -/
  | rev (d s : Reg)
  /-- `mulss`, opcode 0x1e (R191). -/
  | mulss (d s : Reg)
  /-- `mulsu`, opcode 0x1f (R192). -/
  | mulsu (d s : Reg)
  /-- `mulus`, opcode 0x20 (R193). -/
  | mulus (d s : Reg)
  /-- `muluu`, opcode 0x21 (R194). -/
  | muluu (d s : Reg)
  /-- `exchnf0`, opcode 0x80 (R146). -/
  | exchnf0 (d s : Reg)
  /-- `exchnf1`, opcode 0x81 (R146). -/
  | exchnf1 (d s : Reg)
  /-- `exchnf2`, opcode 0x82 (R146). -/
  | exchnf2 (d s : Reg)
  /-- `exchnf3`, opcode 0x83 (R146). -/
  | exchnf3 (d s : Reg)
  /-- `exchnz`, opcode 0x84 (R146). -/
  | exchnz (d s : Reg)
  /-- `exchnc`, opcode 0x85 (R146). -/
  | exchnc (d s : Reg)
  /-- `exchns`, opcode 0x86 (R146). -/
  | exchns (d s : Reg)
  /-- `exchno`, opcode 0x87 (R146). -/
  | exchno (d s : Reg)
  /-- `exchf0`, opcode 0x88 (R146). -/
  | exchf0 (d s : Reg)
  /-- `exchf1`, opcode 0x89 (R146). -/
  | exchf1 (d s : Reg)
  /-- `exchf2`, opcode 0x8a (R146). -/
  | exchf2 (d s : Reg)
  /-- `exchf3`, opcode 0x8b (R146). -/
  | exchf3 (d s : Reg)
  /-- `exchz`, opcode 0x8c (R146). -/
  | exchz (d s : Reg)
  /-- `exchc`, opcode 0x8d (R146). -/
  | exchc (d s : Reg)
  /-- `exchs`, opcode 0x8e (R146). -/
  | exchs (d s : Reg)
  /-- `excho`, opcode 0x8f (R146). -/
  | excho (d s : Reg)
  /-- `ldnf0`, opcode 0x90 (R147). -/
  | ldnf0 (d s : Reg)
  /-- `ldnf1`, opcode 0x91 (R147). -/
  | ldnf1 (d s : Reg)
  /-- `ldnf2`, opcode 0x92 (R147). -/
  | ldnf2 (d s : Reg)
  /-- `ldnf3`, opcode 0x93 (R147). -/
  | ldnf3 (d s : Reg)
  /-- `ldnz`, opcode 0x94 (R147). -/
  | ldnz (d s : Reg)
  /-- `ldnc`, opcode 0x95 (R147). -/
  | ldnc (d s : Reg)
  /-- `ldns`, opcode 0x96 (R147). -/
  | ldns (d s : Reg)
  /-- `ldno`, opcode 0x97 (R147). -/
  | ldno (d s : Reg)
  /-- `ldf0`, opcode 0x98 (R147). -/
  | ldf0 (d s : Reg)
  /-- `ldf1`, opcode 0x99 (R147). -/
  | ldf1 (d s : Reg)
  /-- `ldf2`, opcode 0x9a (R147). -/
  | ldf2 (d s : Reg)
  /-- `ldf3`, opcode 0x9b (R147). -/
  | ldf3 (d s : Reg)
  /-- `ldz`, opcode 0x9c (R147). -/
  | ldz (d s : Reg)
  /-- `ldc`, opcode 0x9d (R147). -/
  | ldc (d s : Reg)
  /-- `lds`, opcode 0x9e (R147). -/
  | lds (d s : Reg)
  /-- `ldo`, opcode 0x9f (R147). -/
  | ldo (d s : Reg)
  /-- `ldnf0is`, opcode 0xa0 (R148). -/
  | ldnf0is (d s : Reg)
  /-- `ldnf1is`, opcode 0xa1 (R148). -/
  | ldnf1is (d s : Reg)
  /-- `ldnf2is`, opcode 0xa2 (R148). -/
  | ldnf2is (d s : Reg)
  /-- `ldnf3is`, opcode 0xa3 (R148). -/
  | ldnf3is (d s : Reg)
  /-- `ldnzis`, opcode 0xa4 (R148). -/
  | ldnzis (d s : Reg)
  /-- `ldncis`, opcode 0xa5 (R148). -/
  | ldncis (d s : Reg)
  /-- `ldnsis`, opcode 0xa6 (R148). -/
  | ldnsis (d s : Reg)
  /-- `ldnois`, opcode 0xa7 (R148). -/
  | ldnois (d s : Reg)
  /-- `ldf0is`, opcode 0xa8 (R148). -/
  | ldf0is (d s : Reg)
  /-- `ldf1is`, opcode 0xa9 (R148). -/
  | ldf1is (d s : Reg)
  /-- `ldf2is`, opcode 0xaa (R148). -/
  | ldf2is (d s : Reg)
  /-- `ldf3is`, opcode 0xab (R148). -/
  | ldf3is (d s : Reg)
  /-- `ldzis`, opcode 0xac (R148). -/
  | ldzis (d s : Reg)
  /-- `ldcis`, opcode 0xad (R148). -/
  | ldcis (d s : Reg)
  /-- `ldsis`, opcode 0xae (R148). -/
  | ldsis (d s : Reg)
  /-- `ldois`, opcode 0xaf (R148). -/
  | ldois (d s : Reg)
  /-- `ldxnf0is`, opcode 0xb0 (R149). -/
  | ldxnf0is (d s : Reg)
  /-- `ldxnf1is`, opcode 0xb1 (R149). -/
  | ldxnf1is (d s : Reg)
  /-- `ldxnf2is`, opcode 0xb2 (R149). -/
  | ldxnf2is (d s : Reg)
  /-- `ldxnf3is`, opcode 0xb3 (R149). -/
  | ldxnf3is (d s : Reg)
  /-- `ldxnzis`, opcode 0xb4 (R149). -/
  | ldxnzis (d s : Reg)
  /-- `ldxncis`, opcode 0xb5 (R149). -/
  | ldxncis (d s : Reg)
  /-- `ldxnsis`, opcode 0xb6 (R149). -/
  | ldxnsis (d s : Reg)
  /-- `ldxnois`, opcode 0xb7 (R149). -/
  | ldxnois (d s : Reg)
  /-- `ldxf0is`, opcode 0xb8 (R149). -/
  | ldxf0is (d s : Reg)
  /-- `ldxf1is`, opcode 0xb9 (R149). -/
  | ldxf1is (d s : Reg)
  /-- `ldxf2is`, opcode 0xba (R149). -/
  | ldxf2is (d s : Reg)
  /-- `ldxf3is`, opcode 0xbb (R149). -/
  | ldxf3is (d s : Reg)
  /-- `ldxzis`, opcode 0xbc (R149). -/
  | ldxzis (d s : Reg)
  /-- `ldxcis`, opcode 0xbd (R149). -/
  | ldxcis (d s : Reg)
  /-- `ldxsis`, opcode 0xbe (R149). -/
  | ldxsis (d s : Reg)
  /-- `ldxois`, opcode 0xbf (R149). -/
  | ldxois (d s : Reg)
  /-- `mvnf0`, opcode 0xc0 (R150). -/
  | mvnf0 (d s : Reg)
  /-- `mvnf1`, opcode 0xc1 (R150). -/
  | mvnf1 (d s : Reg)
  /-- `mvnf2`, opcode 0xc2 (R150). -/
  | mvnf2 (d s : Reg)
  /-- `mvnf3`, opcode 0xc3 (R150). -/
  | mvnf3 (d s : Reg)
  /-- `mvnz`, opcode 0xc4 (R150). -/
  | mvnz (d s : Reg)
  /-- `mvnc`, opcode 0xc5 (R150). -/
  | mvnc (d s : Reg)
  /-- `mvns`, opcode 0xc6 (R150). -/
  | mvns (d s : Reg)
  /-- `mvno`, opcode 0xc7 (R150). -/
  | mvno (d s : Reg)
  /-- `mvf0`, opcode 0xc8 (R150). -/
  | mvf0 (d s : Reg)
  /-- `mvf1`, opcode 0xc9 (R150). -/
  | mvf1 (d s : Reg)
  /-- `mvf2`, opcode 0xca (R150). -/
  | mvf2 (d s : Reg)
  /-- `mvf3`, opcode 0xcb (R150). -/
  | mvf3 (d s : Reg)
  /-- `mvz`, opcode 0xcc (R150). -/
  | mvz (d s : Reg)
  /-- `mvc`, opcode 0xcd (R150). -/
  | mvc (d s : Reg)
  /-- `mvs`, opcode 0xce (R150). -/
  | mvs (d s : Reg)
  /-- `mvo`, opcode 0xcf (R150). -/
  | mvo (d s : Reg)
  /-- Opcodes 0x22 to 0x23, in no list (R203); `op` is the opcode byte. -/
  | unassigned22 (op : Byte) (d s : Reg)
  /-- Opcodes 0x24 to 0x27, in no list (R203); `op` is the opcode byte. -/
  | unassigned24 (op : Byte) (d s : Reg)
  /-- Opcodes 0x28 to 0x2f, in no list (R203); `op` is the opcode byte. -/
  | unassigned28 (op : Byte) (d s : Reg)
  /-- Opcodes 0x30 to 0x3f, in no list (R203); `op` is the opcode byte. -/
  | unassigned30 (op : Byte) (d s : Reg)
  /-- Opcodes 0x40 to 0x7f, in no list (R203); `op` is the opcode byte. -/
  | unassigned40 (op : Byte) (d s : Reg)
  /-- Opcodes 0xd0 to 0xdf, in no list (R203); `op` is the opcode byte. -/
  | unassignedD0 (op : Byte) (d s : Reg)
  /-- Opcodes 0xe0 to 0xff, in no list (R203); `op` is the opcode byte. -/
  | unassignedE0 (op : Byte) (d s : Reg)
  deriving DecidableEq, Repr

end Sys2Proof
end

