-- ==== Sys2Proof/Machine/State.lean ====
section
/-! DEFINITION. Everything the spec gives the machine, as plain data, and its value at reset (R20 to R52, R280 to R285). -/

namespace Sys2Proof.Machine

/-- The register file (R20, R21): `sp` is `r11`, `ca` `r12`, `ia` `r13`, `f` `r14`, `pc` `r15` (R25, R29). -/
structure Regs where
  r0 : Word
  r1 : Word
  r2 : Word
  r3 : Word
  r4 : Word
  r5 : Word
  r6 : Word
  r7 : Word
  r8 : Word
  r9 : Word
  r10 : Word
  sp : Word
  ca : Word
  ia : Word
  f : Word
  pc : Word
  deriving DecidableEq, Repr

/-- The control and status registers that hold something (R37); `csr6` to `csr15` hold no state (R44). -/
structure Csrs where
  csr0 : Word
  csr1 : Word
  csr2 : Word
  csr3 : Word
  csr4 : Word
  csr5 : Word
  deriving DecidableEq, Repr

/-- The control unit's run state, set by the CDI (R48, R276). -/
inductive RunState where
  | stopped | running | singleStep
  deriving DecidableEq, Repr

/-- The keyboard controller (R261 to R265): the received byte `RXD`, `READY.R`, `READY.T`, and the byte in transmission
(which means something while `READY.T` is 0). -/
structure Keyboard where
  rxd : Byte
  received : Bool
  ready : Bool
  txd : Byte
  deriving DecidableEq, Repr

/-- The display controller's own state (R50, R269, R270): whether blinking blocks are shown with their colours exchanged,
and the frames shown since the last exchange. -/
structure Display where
  phase : Bool
  frames : Byte
  deriving DecidableEq, Repr

/-- RAM as address and byte pairs, in the canonical form `Memory.wf` (Ops.lean). -/
abbrev Memory := List Host.Cell

/-- What a byte access reaches (R70). -/
inductive Target where
  | ram | txd | rxd | ready | clkLow | clkHigh | unmapped
  deriving DecidableEq, Repr

/-- Who makes a memory access; ROM_RANGE binds the CPU only (R76, D6). -/
inductive Master where
  | cpu | cdi
  deriving DecidableEq, Repr

/-- The reason codes the hardware writes (R41, R230). -/
inductive Reason where
  | izero | iinstr
  deriving DecidableEq, Repr

/-- What the host does through the CDI (R272 to R276). -/
inductive CdiCommand where
  /-- Read a register (R273). -/
  | readReg (r : Reg)
  /-- Set a register (R273). -/
  | setReg (r : Reg) (v : Word)
  /-- Read a CSR (R273). -/
  | readCsr (c : Csr)
  /-- Set a CSR (R273). -/
  | setCsr (c : Csr) (v : Word)
  /-- Read a byte of the address space (R274). -/
  | readMem (a : Word)
  /-- Write a byte of the address space (R274). -/
  | writeMem (a : Word) (b : Byte)
  /-- Stop the CPU (R276). -/
  | stop
  /-- Run the CPU continuously (R276). -/
  | run
  /-- Execute a single instruction and stop (R276). -/
  | step
  deriving DecidableEq, Repr

/-- What the CDI sends back to the host (R272). -/
inductive CdiReply where
  | reg (r : Reg) (v : Word)
  | csr (c : Csr) (v : Word)
  | mem (a : Word) (b : Byte)
  deriving DecidableEq, Repr

/-- What an agent other than the CPU does between two steps of the CPU (R238, R246, R275, D11, D23). -/
inductive Event where
  /-- The system clock ticks (R257, R258). -/
  | clockTick
  /-- The keyboard delivers a byte (R263). -/
  | keyReceived (b : Byte)
  /-- The byte in transmission has been sent to the keyboard (R262). -/
  | keySent
  /-- The display has shown one frame (R269). -/
  | frame
  /-- The host acts through the CDI (R272). -/
  | cdi (c : CdiCommand)
  /-- A reset that is not a power-up (R280 to R285). -/
  | reset
  deriving DecidableEq, Repr

/-- One entry of the agenda: a turn of the CPU or an event (log 13). -/
inductive Turn where
  | cpu
  | event (e : Event)
  deriving DecidableEq, Repr

/-- The machine. The last four fields are the model's own: the order of events to come (log 13), what the CDI has sent
(log 23), the build's parameters (log 14, log 15), the count of free values used (log 6). -/
structure State where
  regs : Regs
  csrs : Csrs
  halted : Bool
  run : RunState
  mem : Memory
  clk : Word
  kbd : Keyboard
  display : Display
  agenda : List Turn
  replies : List CdiReply
  params : Params
  draws : Nat
  deriving DecidableEq, Repr

/-- Why the machine stops. No instruction raises either: both are raised by an agenda entry that the environment of the
spec never produces (log 12). -/
inductive Fault where
  /-- The keyboard delivers a byte while `READY.R` is 1; the spec leaves this unmodelled (D24). Raised by the event
  `keyReceived`. Safe: nothing can be proved past it. -/
  | keyboardOverrun
  /-- A transmission ends although none is in progress (R262). Raised by the event `keySent`. Safe. -/
  | noTransmission
  deriving DecidableEq, Repr

/-- Why the model gives an instruction no meaning. -/
inductive Refusal where
  /-- The instruction has no meaning yet; raised by `exec` alone, and by no arm of it now. Safe. -/
  | notModelled (mnemonic : String)
  deriving DecidableEq, Repr

/-- The outcome of an instruction or of a step. -/
abbrev Out := Host.Outcome State Fault Refusal

/-- Every register is 0 after reset (R24, R280). -/
def Regs.zero : Regs :=
  { r0 := 0, r1 := 0, r2 := 0, r3 := 0, r4 := 0, r5 := 0, r6 := 0, r7 := 0, r8 := 0, r9 := 0, r10 := 0, sp := 0, ca := 0, ia := 0, f := 0, pc := 0 }

/-- The machine after power-up (R52, R280 to R285): registers 0, not halted, running (log 19), the clock counter 0 and
`READY.T` 1. DESIGN CHOICE, unsafe: the CSRs 0 (log 2), RAM reading 0 (log 1), `READY.R`, `RXD` and the byte in
transmission 0 (log 4), the display's phase and frame count 0 (log 5), nothing on the agenda (log 13). -/
def State.reset : State :=
  { regs := Regs.zero
    csrs := { csr0 := 0, csr1 := 0, csr2 := 0, csr3 := 0, csr4 := 0, csr5 := 0 }
    halted := false
    run := .running
    mem := []
    clk := 0
    kbd := { rxd := 0, received := false, ready := true, txd := 0 }
    display := { phase := false, frames := 0 }
    agenda := []
    replies := []
    params := Config.thisHardware
    draws := 0 }

end Sys2Proof.Machine
end

