-- ==== Sys2Proof/Machine/Operands.lean ====
section
/-! DEFINITION. The bits of words, and the raw reads and updates of the fields of State: no side effect of any kind stands
here (the stores of instructions are in Ops.lean). -/

namespace Sys2Proof.Machine

/-- The low byte of a word (R7). -/
def lowByte (v : Word) : Byte := v.extractLsb' 0 8

/-- The high byte of a word (R7). -/
def highByte (v : Word) : Byte := v.extractLsb' 8 8

/-- The word of a high and a low byte, in the order of the spec's braces (R7). -/
def wordOf (hi lo : Byte) : Word := hi ++ lo

/-- `v` with bit `i` set to `b` and every other bit kept. -/
def withBit (v : Word) (i : Nat) (b : Bool) : Word :=
  if b then v ||| (1#16 <<< i) else v &&& ~~~(1#16 <<< i)

/-- Reads a register (R20). -/
def Regs.get (x : Regs) : Reg → Word
  | .r0 => x.r0
  | .r1 => x.r1
  | .r2 => x.r2
  | .r3 => x.r3
  | .r4 => x.r4
  | .r5 => x.r5
  | .r6 => x.r6
  | .r7 => x.r7
  | .r8 => x.r8
  | .r9 => x.r9
  | .r10 => x.r10
  | .sp => x.sp
  | .ca => x.ca
  | .ia => x.ia
  | .f => x.f
  | .pc => x.pc

/-- The register file after one register has been given a value (R20). -/
def Regs.set (x : Regs) (r : Reg) (v : Word) : Regs :=
  match r with
  | .r0 => { x with r0 := v }
  | .r1 => { x with r1 := v }
  | .r2 => { x with r2 := v }
  | .r3 => { x with r3 := v }
  | .r4 => { x with r4 := v }
  | .r5 => { x with r5 := v }
  | .r6 => { x with r6 := v }
  | .r7 => { x with r7 := v }
  | .r8 => { x with r8 := v }
  | .r9 => { x with r9 := v }
  | .r10 => { x with r10 := v }
  | .sp => { x with sp := v }
  | .ca => { x with ca := v }
  | .ia => { x with ia := v }
  | .f => { x with f := v }
  | .pc => { x with pc := v }

/-- Register `r`, `x[r]` in the spec's notation (R8). -/
def State.reg (s : State) (r : Reg) : Word := s.regs.get r

/-- Puts a value into a register and does nothing else. -/
def State.putReg (s : State) (r : Reg) (v : Word) : State := { s with regs := s.regs.set r v }

/-- Puts a value into `csr0` and does nothing else. -/
def State.putCsr0 (s : State) (v : Word) : State := { s with csrs := { s.csrs with csr0 := v } }

/-- Replaces the control and status registers. -/
def State.putCsrs (s : State) (c : Csrs) : State := { s with csrs := c }

/-- Sets or clears the halt (R49). -/
def State.putHalted (s : State) (b : Bool) : State := { s with halted := b }

/-- Sets the run state (R48). -/
def State.putRun (s : State) (r : RunState) : State := { s with run := r }

/-- Replaces the contents of RAM. -/
def State.putMem (s : State) (m : Memory) : State := { s with mem := m }

/-- Sets the clock counter (R257). -/
def State.putClk (s : State) (v : Word) : State := { s with clk := v }

/-- Replaces the keyboard controller's state (R261). -/
def State.putKbd (s : State) (k : Keyboard) : State := { s with kbd := k }

/-- Replaces the display controller's state (R270). -/
def State.putDisplay (s : State) (d : Display) : State := { s with display := d }

/-- Replaces the agenda (log 13). -/
def State.putAgenda (s : State) (a : List Turn) : State := { s with agenda := a }

/-- Appends a reply of the CDI (R272). -/
def State.reply (s : State) (r : CdiReply) : State := { s with replies := s.replies ++ [r] }

/-- Counts `n` more free values as used (log 6). -/
def State.bump (s : State) (n : Nat) : State := { s with draws := s.draws + n }

/-- The flag register `f` (R29). -/
def State.f (s : State) : Word := s.reg .f

/-- The program counter (R25). -/
def State.pc (s : State) : Word := s.reg .pc

/-- `ie`, bit 8 of `f`: interrupts enabled (R29, R239). -/
def State.ie (s : State) : Bool := s.f.getLsbD 8

/-- `exc`, bit 9 of `f`: an exception is pending (R29). -/
def State.exc (s : State) : Bool := s.f.getLsbD 9

/-- One unspecified flag, and the state that remembers it was used (R10, R31, log 6). -/
def State.drawFlag (s : State) : Bool × State := (Config.freeFlag s.draws, s.bump 1)

/-- One unspecified byte, read at address `a` (R75, log 7). -/
def State.drawByte (s : State) (a : Word) : Byte × State := (Config.freeByte s.draws a, s.bump 1)

/-- One unspecified word (log 8). -/
def State.drawWord (s : State) : Word × State := (Config.freeWord s.draws, s.bump 1)

end Sys2Proof.Machine
end

