-- ==== Sys2Proof/Machine/Flags.lean ====
section
/-! DEFINITION. Every computation of `z`, `c`, `s`, `o` the spec gives (R160 to R182, R190 to R196) and the two ways they
reach `f` (R10, R196). -/

namespace Sys2Proof.Machine

/-- The four flags an instruction signals its outcome in, bits 4 to 7 of `f` (R29, R33). -/
structure ZCSO where
  z : Bool
  c : Bool
  s : Bool
  o : Bool
  deriving DecidableEq, Repr

/-- `Z(v)`: the value is zero (R10). -/
def zeroFlag (v : Word) : Bool := v == 0

/-- `N(v)`: the highest bit (R10, R161). -/
def signFlag (v : Word) : Bool := v.getLsbD 15

/-- Flags of `a + b` (R162, R163, R166). -/
def addFlags (a b : Word) : ZCSO :=
  let r := a + b
  { z := zeroFlag r
    c := decide (2 ^ 16 ≤ a.toNat + b.toNat)
    s := signFlag r
    o := a.getLsbD 15 == b.getLsbD 15 && r.getLsbD 15 != a.getLsbD 15 }

/-- Flags of `a - b`; `c` is the borrow (R162, R163, R167). -/
def subFlags (a b : Word) : ZCSO :=
  let r := a - b
  { z := zeroFlag r
    c := decide (a.toNat < b.toNat)
    s := signFlag r
    o := a.getLsbD 15 != b.getLsbD 15 && r.getLsbD 15 != a.getLsbD 15 }

/-- Flags of the signed comparison of `a` with `b`: equal, less or equal, less, 0 (R168). -/
def cmpsFlags (a b : Word) : ZCSO :=
  { z := a == b, c := decide (a.toInt ≤ b.toInt), s := decide (a.toInt < b.toInt), o := false }

/-- Flags of the unsigned comparison of `a` with `b` (R169). -/
def cmpuFlags (a b : Word) : ZCSO :=
  { z := a == b, c := decide (a.toNat ≤ b.toNat), s := decide (a.toNat < b.toNat), o := false }

/-- Flags of a logic result: `c` and `o` are 0 (R170 to R174). -/
def logicFlags (r : Word) : ZCSO :=
  { z := zeroFlag r, c := false, s := signFlag r, o := false }

/-- Flags of `inc1` of `a` (R178). -/
def inc1Flags (a : Word) : ZCSO :=
  { z := zeroFlag (a + 1), c := a == 0xffff, s := signFlag (a + 1), o := a == 0x7fff }

/-- Flags of `inc2` of `a` (R179). -/
def inc2Flags (a : Word) : ZCSO :=
  { z := zeroFlag (a + 2), c := decide (0xfffe ≤ a.toNat), s := signFlag (a + 2), o := a == 0x7ffe || a == 0x7fff }

/-- Flags of `dec1` of `a` (R180). -/
def dec1Flags (a : Word) : ZCSO :=
  { z := zeroFlag (a - 1), c := a == 0, s := signFlag (a - 1), o := a == 0x8000 }

/-- Flags of `dec2` of `a` (R181). -/
def dec2Flags (a : Word) : ZCSO :=
  { z := zeroFlag (a - 2), c := decide (a.toNat < 2), s := signFlag (a - 2), o := a == 0x8000 || a == 0x8001 }

/-- Flags of `neg`, from its result `r` (R182). -/
def negFlags (r : Word) : ZCSO :=
  { z := zeroFlag r, c := r == 0, s := signFlag r, o := r == 0x8000 }

/-- Flags of a product read as signed: `p` exact, `hi` the upper 16 bits of its pattern (R191 to R193). -/
def mulSignedFlags (p : Int) (hi : Word) : ZCSO :=
  { z := decide (p = 0)
    c := if 0 ≤ p then hi != 0 else hi != 0xffff
    s := hi.getLsbD 15
    o := decide (p < -32768 ∨ 32767 < p) }

/-- Flags of `muluu`: `s` is 0 and `o` tests the signed 16-bit range (R194). -/
def muluuFlags (p : Nat) (hi : Word) : ZCSO :=
  { z := decide (p = 0), c := hi != 0, s := false, o := decide (32767 < p) }

/-- `f` with bits 4 to 7 replaced and every other bit kept (R10, R30). -/
def flagWord (f : Word) (q : ZCSO) : Word :=
  withBit (withBit (withBit (withBit f 4 q.z) 5 q.c) 6 q.s) 7 q.o

/-- Writes the four flags (R10). -/
def State.putFlags (s : State) (q : ZCSO) : State := s.putReg .f (flagWord s.f q)

/-- `SetZCSO` of an instruction with destination `d`: nothing when `f` is the destination, where the stored value
overrides the outcome (R10, R34). -/
def State.setFlags (s : State) (d : Reg) (q : ZCSO) : State := if d = .f then s else s.putFlags q

/-- `SetZCSO2` of a multiply: nothing when either output register is `f` (R196, D10, log 26). -/
def State.setFlags2 (s : State) (d t : Reg) (q : ZCSO) : State :=
  if d = .f ∨ t = .f then s else s.putFlags q

end Sys2Proof.Machine
end

