-- ==== Sys2Proof/Machine/Ops.lean ====
section
/-! DEFINITION. The operations the instructions share: bytes of RAM, the address map, word accesses, the store into a
register, the CSRs, taking an exception, entering the handler and returning from it. -/

namespace Sys2Proof.Machine

/-- What a byte of RAM that nothing has written reads as: DESIGN CHOICE, unsafe (MEM_INIT, R283, D16, log 1). -/
def Memory.unlisted : Byte := 0

/-- The byte of RAM at address `a`. -/
def Memory.read (m : Memory) (a : Nat) : Byte :=
  match m with
  | [] => Memory.unlisted
  | (b, v) :: rest => if a = b then v else Memory.read rest a

/-- RAM without an entry for address `a`, the entries being sorted. -/
def Memory.erase (m : Memory) (a : Nat) : Memory :=
  match m with
  | [] => []
  | (b, v) :: rest => if a = b then rest else (b, v) :: Memory.erase rest a

/-- RAM with the entry `(a, v)` put where the order of addresses wants it. -/
def Memory.insert (m : Memory) (a : Nat) (v : Byte) : Memory :=
  match m with
  | [] => [(a, v)]
  | (b, u) :: rest =>
    if a < b then (a, v) :: (b, u) :: rest
    else if a = b then (a, v) :: rest
    else (b, u) :: Memory.insert rest a v

/-- RAM after byte `v` has been written at address `a`. -/
def Memory.write (m : Memory) (a : Nat) (v : Byte) : Memory :=
  if v = Memory.unlisted then Memory.erase m a else Memory.insert m a v

/-- The canonical form above address `lo`: addresses at least `lo`, strictly rising, all in RAM (R71), and no byte equal to
what an unlisted address reads as. -/
def Memory.wfFrom (lo : Nat) (m : Memory) : Bool :=
  match m with
  | [] => true
  | (a, v) :: rest =>
    decide (lo ≤ a) && decide (a ≤ Config.memMax.toNat) && v != Memory.unlisted && Memory.wfFrom (a + 1) rest

/-- The canonical form of RAM. -/
def Memory.wf (m : Memory) : Bool := Memory.wfFrom 0 m

/-- What lies at an address (R70). -/
def target (a : Word) : Target :=
  if a ≤ Config.memMax then .ram
  else if a = Config.kbdAddr then .txd
  else if a = Config.kbdAddr + 1 then .rxd
  else if a = Config.kbdAddr + 2 then .ready
  else if a = Config.clkAddr then .clkLow
  else if a = Config.clkAddr + 1 then .clkHigh
  else .unmapped

/-- The byte `READY` reads as: bit 0 `R`, bit 1 `T`, the rest 0 (R265). -/
def Keyboard.readyByte (k : Keyboard) : Byte :=
  (0#6 ++ BitVec.ofBool k.ready) ++ BitVec.ofBool k.received

/-- A byte read through the address map (R68, R70, R259, R263, R265). Only a read whose value is open changes the state,
by counting it: an unmapped address or `TXD` (R75, log 7), `RXD` while `R` is 0 (R263, log 11). -/
def State.readByte (s : State) (a : Word) : Byte × State :=
  match target a with
  | .ram => (s.mem.read a.toNat, s)
  | .txd => s.drawByte a
  | .rxd => if s.kbd.received then (s.kbd.rxd, s) else s.drawByte a
  | .ready => (s.kbd.readyByte, s)
  | .clkLow => (lowByte s.clk, s)
  | .clkHigh => (highByte s.clk, s)
  | .unmapped => s.drawByte a

/-- A write to `TXD` (R262): with `T` = 1 the byte's transmission starts; with `T` = 0 the spec gives no result, and the
byte in transmission and `T` become free (log 10). -/
def State.writeTxd (s : State) (b : Byte) : State :=
  if s.kbd.ready then s.putKbd { s.kbd with ready := false, txd := b }
  else
    (s.putKbd { s.kbd with
      ready := Config.freeFlag s.draws
      txd := Config.freeByte (s.draws + 1) Config.kbdAddr }).bump 2

/-- A write of any value to `RXD` acknowledges the byte (R263). -/
def State.writeRxd (s : State) : State := s.putKbd { s.kbd with received := false }

/-- The address lies in ROM_RANGE (R76). -/
def inRom (p : Params) (a : Word) : Bool :=
  match p.romRange with
  | none => false
  | some (lo, hi) => lo ≤ a && a ≤ hi

/-- The write is dropped: the CPU writes into ROM_RANGE (R76, D6, log 15). -/
def writeProhibited (p : Params) (m : Master) (a : Word) : Bool :=
  match m with
  | .cpu => inRom p a
  | .cdi => false

/-- A byte write that nothing prohibits, through the address map (R68, R70). `READY`, the clock counter and unmapped
addresses ignore it (R75, log 7). -/
def State.storeByte (s : State) (a : Word) (b : Byte) : State :=
  match target a with
  | .ram => s.putMem (s.mem.write a.toNat b)
  | .txd => s.writeTxd b
  | .rxd => s.writeRxd
  | .ready => s
  | .clkLow => s
  | .clkHigh => s
  | .unmapped => s

/-- `MemWrite(a, 1, b)` (R9, R76). -/
def State.writeByte (s : State) (m : Master) (a : Word) (b : Byte) : State :=
  if writeProhibited s.params m a then s else s.storeByte a b

/-- `MemRead(a, 2)`: the low byte at `a` first, then the high byte at `a + 1` modulo 2^16 (R9, R60, R64, D2 to D4,
log 20). -/
def State.readWord (s : State) (a : Word) : Word × State :=
  let lo := s.readByte a
  let hi := lo.2.readByte (a + 1)
  (wordOf hi.1 lo.1, hi.2)

/-- `MemWrite(a, 2, v)`: the low byte at `a` first, then the high byte at `a + 1` modulo 2^16 (R9, R60, R64, R76). -/
def State.writeWord (s : State) (m : Master) (a v : Word) : State :=
  (s.writeByte m a (lowByte v)).writeByte m (a + 1) (highByte v)

/-- Some bit 9 to 15 is 1 in `new` that was 0 in `old` (R241). -/
def setsPending (old new : Word) : Bool := (new &&& ~~~old &&& 0xfe00#16) != 0

/-- `csr0` with `H` set or cleared (R40, R42). -/
def withH (v : Word) (h : Bool) : Word := withBit v 8 h

/-- The store of an instruction into a register (R8). A store into `f` that newly sets a bit 9 to 15 is a software
exception or interrupt and clears `H` (R235, R240, R241, log 16); it never halts the CPU (R236, D13, log 17). -/
def State.writeReg (s : State) (r : Reg) (v : Word) : State :=
  if r = .f ∧ setsPending s.f v = true then (s.putReg r v).putCsr0 (withH s.csrs.csr0 false)
  else s.putReg r v

/-- `CsrRead` (R38): bits 15:9 of `csr0` and all of `csr6` to `csr15` read 0. -/
def State.csrRead (s : State) : Csr → Word
  | .csr0 => s.csrs.csr0 &&& 0x01ff#16
  | .csr1 => s.csrs.csr1
  | .csr2 => s.csrs.csr2
  | .csr3 => s.csrs.csr3
  | .csr4 => s.csrs.csr4
  | .csr5 => s.csrs.csr5
  | .csr6 => 0
  | .csr7 => 0
  | .csr8 => 0
  | .csr9 => 0
  | .csr10 => 0
  | .csr11 => 0
  | .csr12 => 0
  | .csr13 => 0
  | .csr14 => 0
  | .csr15 => 0

/-- `CsrWrite` (R39): only REASON of `csr0` can be written; `csr6` to `csr15` discard the write
(D25, D26, log 31). -/
def State.csrWrite (s : State) (c : Csr) (v : Word) : State :=
  match c with
  | .csr0 => s.putCsr0 (wordOf (highByte s.csrs.csr0) (lowByte v))
  | .csr1 => s.putCsrs { s.csrs with csr1 := v }
  | .csr2 => s.putCsrs { s.csrs with csr2 := v }
  | .csr3 => s.putCsrs { s.csrs with csr3 := v }
  | .csr4 => s.putCsrs { s.csrs with csr4 := v }
  | .csr5 => s.putCsrs { s.csrs with csr5 := v }
  | .csr6 => s
  | .csr7 => s
  | .csr8 => s
  | .csr9 => s
  | .csr10 => s
  | .csr11 => s
  | .csr12 => s
  | .csr13 => s
  | .csr14 => s
  | .csr15 => s

/-- The number of a reason (R41). -/
def reasonCode : Reason → Byte
  | .izero => 1
  | .iinstr => 2

/-- `raise Exception(code)` (R231): REASON and `H` are recorded, `exc` is set, and the CPU halts when `ie` is 0. The handler
is entered by the test before the next instruction (`enterHandler`). -/
def State.raise (s : State) (e : Reason) : State :=
  let t := (s.putCsr0 (withH (wordOf (highByte s.csrs.csr0) (reasonCode e)) true)).putReg .f (withBit s.f 9 true)
  if s.ie then t else t.putHalted true

/-- The interrupt test: interrupts enabled and some bit 9 to 15 of `f` set (R239, R242, R246, D22, log 31). -/
def State.entryDue (s : State) : Bool := s.ie && (s.f &&& 0xfe00#16) != 0

/-- Entry into the handler: `ie` is cleared, `pc` and `ia` are exchanged, nothing else is saved (R246 to R248,
D14, log 31). -/
def State.enterHandler (s : State) : State :=
  ((s.putReg .f (withBit s.f 8 false)).putReg .ia (s.reg .pc)).putReg .pc (s.reg .ia)

/-- The test made before each instruction and the entry it leads to (R246). -/
def State.testInterrupts (s : State) : State := if s.entryDue then s.enterHandler else s

/-- The return from the handler (R201, R251): `ie` is set, `pc` takes `ia`, `ia` takes `csr1`. -/
def State.returnFromHandler (s : State) : State :=
  ((s.putReg .f (withBit s.f 8 true)).putReg .pc (s.reg .ia)).putReg .ia (s.csrRead .csr1)

/-- Exchanges two registers, both read before either is written (R121). -/
def State.exchange (s : State) (d t : Reg) : State :=
  (s.writeReg d (s.reg t)).writeReg t (s.reg d)

/-- Loads a word from the address in `t` into `d` (R131). -/
def State.load (s : State) (d t : Reg) : State :=
  let w := s.readWord (s.reg t)
  w.2.writeReg d w.1

/-- Adds 2 to a register as an address, modulo 2^16, changing no flag (R133, D2). -/
def State.addTwo (s : State) (t : Reg) : State := s.writeReg t (s.reg t + 2)

/-- Load and increment source (R133). With both fields the same register the spec leaves open which value stays, and it is
a free word (R138, D8, log 8). -/
def State.loadIncrement (s : State) (d t : Reg) : State :=
  let w := s.readWord (s.reg t)
  if d = t then
    let v := w.2.drawWord
    v.2.writeReg d v.1
  else (w.2.writeReg d w.1).writeReg t (s.reg t + 2)

/-- Load, increment source and exchange: the loaded word ends in `t`, the incremented address in `d` (R134). With both
fields the same register the value that stays is a free word (R138, D8, log 8). -/
def State.loadIncrementExchange (s : State) (d t : Reg) : State :=
  let w := s.readWord (s.reg t)
  if d = t then
    let v := w.2.drawWord
    v.2.writeReg d v.1
  else (w.2.writeReg d (s.reg t + 2)).writeReg t w.1

/-- The test of a conditional instruction: bit `flag` of `f`, one of the low eight, equals `v` (R145). -/
def State.test (s : State) (flag : Nat) (v : Bool) : Bool := s.f.getLsbD flag == v

/-- The prefix of every optional instruction's rule: an instruction not in IMPLEMENTED raises IINSTR and has no other effect
(R5, R11, R203, log 14). -/
def State.ifImplemented (s : State) (o : OptionalInstr) (effect : State) : Out :=
  if o ∈ s.params.implemented then .next effect else .next (s.raise .iinstr)

end Sys2Proof.Machine
end

