-- ==== Sys2Proof/Machine/Computational.lean ====
section
/-! DEFINITION. The computational instructions (43_computational.md). Binary ones compute from `d` and `s`, unary ones from
`s` alone; the result goes to `d` (R160), and all four flags are written unless `f` is the destination (R165). -/

namespace Sys2Proof.Machine

/-- Stores a result and signals its flags (R10, R34, R160, R165). -/
def State.putResult (st : State) (d : Reg) (r : Word) (q : ZCSO) : State := (st.writeReg d r).setFlags d q

/-- `add` (R166). -/
def execAdd (d s : Reg) (st : State) : Out :=
  .next (st.putResult d (st.reg d + st.reg s) (addFlags (st.reg d) (st.reg s)))

/-- `sub` (R167). -/
def execSub (d s : Reg) (st : State) : Out :=
  .next (st.putResult d (st.reg d - st.reg s) (subFlags (st.reg d) (st.reg s)))

/-- `cmps` (R168): writes the flags only, also when `d` is `f` (D9, log 26). -/
def execCmps (d s : Reg) (st : State) : Out := .next (st.putFlags (cmpsFlags (st.reg d) (st.reg s)))

/-- `cmpu` (R169): writes the flags only, also when `d` is `f` (D9, log 26). -/
def execCmpu (d s : Reg) (st : State) : Out := .next (st.putFlags (cmpuFlags (st.reg d) (st.reg s)))

/-- Stores a logic result with its flags (R170 to R174). -/
def State.putLogic (st : State) (d : Reg) (r : Word) : State := st.putResult d r (logicFlags r)

/-- `and` (R170). -/
def execAnd (d s : Reg) (st : State) : Out := .next (st.putLogic d (st.reg d &&& st.reg s))

/-- `or` (R171). -/
def execOr (d s : Reg) (st : State) : Out := .next (st.putLogic d (st.reg d ||| st.reg s))

/-- `xor` (R172). -/
def execXor (d s : Reg) (st : State) : Out := .next (st.putLogic d (st.reg d ^^^ st.reg s))

/-- `not` (R173): of `s` alone. -/
def execNot (d s : Reg) (st : State) : Out := .next (st.putLogic d (~~~ st.reg s))

/-- The bits of a word in the opposite order (R174). -/
def reverseBits (v : Word) : Word := v.reverse

/-- `rev` (R174): of `s` alone. -/
def execRev (d s : Reg) (st : State) : Out := .next (st.putLogic d (reverseBits (st.reg s)))

/-- The shift count, bits 3:0 of the source (R175). -/
def shiftCount (v : Word) : Nat := (v.extractLsb' 0 4).toNat

/-- `c` of a shift: the bit shifted out by a shift by 1, else unspecified (R175 to R177, U1 to U3, log 6). -/
def State.shiftCarry (st : State) (n : Nat) (b : Bool) : Bool × State := if n = 1 then (b, st) else st.drawFlag

/-- `o` of `shra`: 0 for a shift by 0, "the value is 0xffff" for a shift by 1, else unspecified (R177, C10, U4, log 6). -/
def State.shraOverflow (st : State) (n : Nat) (v : Word) : Bool × State :=
  if n = 0 then (false, st) else if n = 1 then (v == 0xffff, st) else st.drawFlag

/-- `shl` (R175). -/
def execShl (d s : Reg) (st : State) : Out :=
  let v := st.reg d
  let n := shiftCount (st.reg s)
  let r := v <<< n
  let c := st.shiftCarry n (v.getLsbD 15)
  .next (c.2.putResult d r
    { z := zeroFlag r, c := c.1, s := signFlag r, o := r.getLsbD 15 != v.getLsbD 15 })

/-- `shr` (R176). -/
def execShr (d s : Reg) (st : State) : Out :=
  let v := st.reg d
  let n := shiftCount (st.reg s)
  let r := v >>> n
  let c := st.shiftCarry n (v.getLsbD 0)
  .next (c.2.putResult d r
    { z := zeroFlag r, c := c.1, s := signFlag r, o := r.getLsbD 15 != v.getLsbD 15 })

/-- `shra` (R177). -/
def execShra (d s : Reg) (st : State) : Out :=
  let v := st.reg d
  let n := shiftCount (st.reg s)
  let r := v.sshiftRight n
  let c := st.shiftCarry n (v.getLsbD 0)
  let o := c.2.shraOverflow n v
  .next (o.2.putResult d r { z := zeroFlag r, c := c.1, s := signFlag r, o := o.1 })

/-- `inc1` (R178): of `s` alone. -/
def execInc1 (d s : Reg) (st : State) : Out := .next (st.putResult d (st.reg s + 1) (inc1Flags (st.reg s)))

/-- `inc2` (R179): of `s` alone. -/
def execInc2 (d s : Reg) (st : State) : Out := .next (st.putResult d (st.reg s + 2) (inc2Flags (st.reg s)))

/-- `dec1` (R180): of `s` alone. -/
def execDec1 (d s : Reg) (st : State) : Out := .next (st.putResult d (st.reg s - 1) (dec1Flags (st.reg s)))

/-- `dec2` (R181): of `s` alone. -/
def execDec2 (d s : Reg) (st : State) : Out := .next (st.putResult d (st.reg s - 2) (dec2Flags (st.reg s)))

/-- `neg` (R182), optional: inverts all bits of `s` and adds 1. -/
def execNeg (d s : Reg) (st : State) : Out :=
  let r := ~~~ st.reg s + 1
  st.ifImplemented .neg (st.putResult d r (negFlags r))

end Sys2Proof.Machine
end

