-- ==== Sys2Proof/Machine/Conditional.lean ====
section
/-! DEFINITION. The conditional instructions, five families of sixteen (42_conditional.md). Each tests one of the flags of
the low byte of `f`, as it is when the instruction starts (R145), and changes no flag as a side effect. -/

namespace Sys2Proof.Machine

/-- `exchNF` (R146): exchanges if the test is true, else nothing. -/
def State.exchangeIf (st : State) (test : Bool) (d s : Reg) : State := if test then st.exchange d s else st

/-- `ldNF` (R147): loads if the test is true, else nothing, not even a memory access. -/
def State.loadIf (st : State) (test : Bool) (d s : Reg) : State := if test then st.load d s else st

/-- `ldNFis` (R148): loads if the test is true, else adds 2 to the source. -/
def State.loadOrSkip (st : State) (test : Bool) (d s : Reg) : State := if test then st.load d s else st.addTwo s

/-- `ldxNFis` (R149): loads, adds 2 to the source and exchanges if the test is true, else only adds 2 to the source. -/
def State.loadExchangeOrSkip (st : State) (test : Bool) (d s : Reg) : State :=
  if test then st.loadIncrementExchange d s else st.addTwo s

/-- `mvNF` (R150): copies `s` into `d` if the test is true, else nothing. -/
def State.moveIf (st : State) (test : Bool) (d s : Reg) : State := if test then st.writeReg d (st.reg s) else st

/-- `exchnf0` (R146): tests `f0` = 0, optional. -/
def execExchnf0 (d s : Reg) (st : State) : Out := st.ifImplemented .exchNF (st.exchangeIf (st.test 0 false) d s)

/-- `exchnf1` (R146): tests `f1` = 0, optional. -/
def execExchnf1 (d s : Reg) (st : State) : Out := st.ifImplemented .exchNF (st.exchangeIf (st.test 1 false) d s)

/-- `exchnf2` (R146): tests `f2` = 0, optional. -/
def execExchnf2 (d s : Reg) (st : State) : Out := st.ifImplemented .exchNF (st.exchangeIf (st.test 2 false) d s)

/-- `exchnf3` (R146): tests `f3` = 0, optional. -/
def execExchnf3 (d s : Reg) (st : State) : Out := st.ifImplemented .exchNF (st.exchangeIf (st.test 3 false) d s)

/-- `exchnz` (R146): tests `z` = 0, optional. -/
def execExchnz (d s : Reg) (st : State) : Out := st.ifImplemented .exchNF (st.exchangeIf (st.test 4 false) d s)

/-- `exchnc` (R146): tests `c` = 0, optional. -/
def execExchnc (d s : Reg) (st : State) : Out := st.ifImplemented .exchNF (st.exchangeIf (st.test 5 false) d s)

/-- `exchns` (R146): tests `s` = 0, optional. -/
def execExchns (d s : Reg) (st : State) : Out := st.ifImplemented .exchNF (st.exchangeIf (st.test 6 false) d s)

/-- `exchno` (R146): tests `o` = 0, optional. -/
def execExchno (d s : Reg) (st : State) : Out := st.ifImplemented .exchNF (st.exchangeIf (st.test 7 false) d s)

/-- `exchf0` (R146): tests `f0` = 1, optional. -/
def execExchf0 (d s : Reg) (st : State) : Out := st.ifImplemented .exchNF (st.exchangeIf (st.test 0 true) d s)

/-- `exchf1` (R146): tests `f1` = 1, optional. -/
def execExchf1 (d s : Reg) (st : State) : Out := st.ifImplemented .exchNF (st.exchangeIf (st.test 1 true) d s)

/-- `exchf2` (R146): tests `f2` = 1, optional. -/
def execExchf2 (d s : Reg) (st : State) : Out := st.ifImplemented .exchNF (st.exchangeIf (st.test 2 true) d s)

/-- `exchf3` (R146): tests `f3` = 1, optional. -/
def execExchf3 (d s : Reg) (st : State) : Out := st.ifImplemented .exchNF (st.exchangeIf (st.test 3 true) d s)

/-- `exchz` (R146): tests `z` = 1, optional. -/
def execExchz (d s : Reg) (st : State) : Out := st.ifImplemented .exchNF (st.exchangeIf (st.test 4 true) d s)

/-- `exchc` (R146): tests `c` = 1, optional. -/
def execExchc (d s : Reg) (st : State) : Out := st.ifImplemented .exchNF (st.exchangeIf (st.test 5 true) d s)

/-- `exchs` (R146): tests `s` = 1, optional. -/
def execExchs (d s : Reg) (st : State) : Out := st.ifImplemented .exchNF (st.exchangeIf (st.test 6 true) d s)

/-- `excho` (R146): tests `o` = 1, optional. -/
def execExcho (d s : Reg) (st : State) : Out := st.ifImplemented .exchNF (st.exchangeIf (st.test 7 true) d s)

/-- `ldnf0` (R147): tests `f0` = 0. -/
def execLdnf0 (d s : Reg) (st : State) : Out := .next (st.loadIf (st.test 0 false) d s)

/-- `ldnf1` (R147): tests `f1` = 0. -/
def execLdnf1 (d s : Reg) (st : State) : Out := .next (st.loadIf (st.test 1 false) d s)

/-- `ldnf2` (R147): tests `f2` = 0. -/
def execLdnf2 (d s : Reg) (st : State) : Out := .next (st.loadIf (st.test 2 false) d s)

/-- `ldnf3` (R147): tests `f3` = 0. -/
def execLdnf3 (d s : Reg) (st : State) : Out := .next (st.loadIf (st.test 3 false) d s)

/-- `ldnz` (R147): tests `z` = 0. -/
def execLdnz (d s : Reg) (st : State) : Out := .next (st.loadIf (st.test 4 false) d s)

/-- `ldnc` (R147): tests `c` = 0. -/
def execLdnc (d s : Reg) (st : State) : Out := .next (st.loadIf (st.test 5 false) d s)

/-- `ldns` (R147): tests `s` = 0. -/
def execLdns (d s : Reg) (st : State) : Out := .next (st.loadIf (st.test 6 false) d s)

/-- `ldno` (R147): tests `o` = 0. -/
def execLdno (d s : Reg) (st : State) : Out := .next (st.loadIf (st.test 7 false) d s)

/-- `ldf0` (R147): tests `f0` = 1. -/
def execLdf0 (d s : Reg) (st : State) : Out := .next (st.loadIf (st.test 0 true) d s)

/-- `ldf1` (R147): tests `f1` = 1. -/
def execLdf1 (d s : Reg) (st : State) : Out := .next (st.loadIf (st.test 1 true) d s)

/-- `ldf2` (R147): tests `f2` = 1. -/
def execLdf2 (d s : Reg) (st : State) : Out := .next (st.loadIf (st.test 2 true) d s)

/-- `ldf3` (R147): tests `f3` = 1. -/
def execLdf3 (d s : Reg) (st : State) : Out := .next (st.loadIf (st.test 3 true) d s)

/-- `ldz` (R147): tests `z` = 1. -/
def execLdz (d s : Reg) (st : State) : Out := .next (st.loadIf (st.test 4 true) d s)

/-- `ldc` (R147): tests `c` = 1. -/
def execLdc (d s : Reg) (st : State) : Out := .next (st.loadIf (st.test 5 true) d s)

/-- `lds` (R147): tests `s` = 1. -/
def execLds (d s : Reg) (st : State) : Out := .next (st.loadIf (st.test 6 true) d s)

/-- `ldo` (R147): tests `o` = 1. -/
def execLdo (d s : Reg) (st : State) : Out := .next (st.loadIf (st.test 7 true) d s)

/-- `ldnf0is` (R148): tests `f0` = 0. -/
def execLdnf0is (d s : Reg) (st : State) : Out := .next (st.loadOrSkip (st.test 0 false) d s)

/-- `ldnf1is` (R148): tests `f1` = 0. -/
def execLdnf1is (d s : Reg) (st : State) : Out := .next (st.loadOrSkip (st.test 1 false) d s)

/-- `ldnf2is` (R148): tests `f2` = 0. -/
def execLdnf2is (d s : Reg) (st : State) : Out := .next (st.loadOrSkip (st.test 2 false) d s)

/-- `ldnf3is` (R148): tests `f3` = 0. -/
def execLdnf3is (d s : Reg) (st : State) : Out := .next (st.loadOrSkip (st.test 3 false) d s)

/-- `ldnzis` (R148): tests `z` = 0. -/
def execLdnzis (d s : Reg) (st : State) : Out := .next (st.loadOrSkip (st.test 4 false) d s)

/-- `ldncis` (R148): tests `c` = 0. -/
def execLdncis (d s : Reg) (st : State) : Out := .next (st.loadOrSkip (st.test 5 false) d s)

/-- `ldnsis` (R148): tests `s` = 0. -/
def execLdnsis (d s : Reg) (st : State) : Out := .next (st.loadOrSkip (st.test 6 false) d s)

/-- `ldnois` (R148): tests `o` = 0. -/
def execLdnois (d s : Reg) (st : State) : Out := .next (st.loadOrSkip (st.test 7 false) d s)

/-- `ldf0is` (R148): tests `f0` = 1. -/
def execLdf0is (d s : Reg) (st : State) : Out := .next (st.loadOrSkip (st.test 0 true) d s)

/-- `ldf1is` (R148): tests `f1` = 1. -/
def execLdf1is (d s : Reg) (st : State) : Out := .next (st.loadOrSkip (st.test 1 true) d s)

/-- `ldf2is` (R148): tests `f2` = 1. -/
def execLdf2is (d s : Reg) (st : State) : Out := .next (st.loadOrSkip (st.test 2 true) d s)

/-- `ldf3is` (R148): tests `f3` = 1. -/
def execLdf3is (d s : Reg) (st : State) : Out := .next (st.loadOrSkip (st.test 3 true) d s)

/-- `ldzis` (R148): tests `z` = 1. -/
def execLdzis (d s : Reg) (st : State) : Out := .next (st.loadOrSkip (st.test 4 true) d s)

/-- `ldcis` (R148): tests `c` = 1. -/
def execLdcis (d s : Reg) (st : State) : Out := .next (st.loadOrSkip (st.test 5 true) d s)

/-- `ldsis` (R148): tests `s` = 1. -/
def execLdsis (d s : Reg) (st : State) : Out := .next (st.loadOrSkip (st.test 6 true) d s)

/-- `ldois` (R148): tests `o` = 1. -/
def execLdois (d s : Reg) (st : State) : Out := .next (st.loadOrSkip (st.test 7 true) d s)

/-- `ldxnf0is` (R149): tests `f0` = 0, optional. -/
def execLdxnf0is (d s : Reg) (st : State) : Out := st.ifImplemented .ldxNFis (st.loadExchangeOrSkip (st.test 0 false) d s)

/-- `ldxnf1is` (R149): tests `f1` = 0, optional. -/
def execLdxnf1is (d s : Reg) (st : State) : Out := st.ifImplemented .ldxNFis (st.loadExchangeOrSkip (st.test 1 false) d s)

/-- `ldxnf2is` (R149): tests `f2` = 0, optional. -/
def execLdxnf2is (d s : Reg) (st : State) : Out := st.ifImplemented .ldxNFis (st.loadExchangeOrSkip (st.test 2 false) d s)

/-- `ldxnf3is` (R149): tests `f3` = 0, optional. -/
def execLdxnf3is (d s : Reg) (st : State) : Out := st.ifImplemented .ldxNFis (st.loadExchangeOrSkip (st.test 3 false) d s)

/-- `ldxnzis` (R149): tests `z` = 0, optional. -/
def execLdxnzis (d s : Reg) (st : State) : Out := st.ifImplemented .ldxNFis (st.loadExchangeOrSkip (st.test 4 false) d s)

/-- `ldxncis` (R149): tests `c` = 0, optional. -/
def execLdxncis (d s : Reg) (st : State) : Out := st.ifImplemented .ldxNFis (st.loadExchangeOrSkip (st.test 5 false) d s)

/-- `ldxnsis` (R149): tests `s` = 0, optional. -/
def execLdxnsis (d s : Reg) (st : State) : Out := st.ifImplemented .ldxNFis (st.loadExchangeOrSkip (st.test 6 false) d s)

/-- `ldxnois` (R149): tests `o` = 0, optional. -/
def execLdxnois (d s : Reg) (st : State) : Out := st.ifImplemented .ldxNFis (st.loadExchangeOrSkip (st.test 7 false) d s)

/-- `ldxf0is` (R149): tests `f0` = 1, optional. -/
def execLdxf0is (d s : Reg) (st : State) : Out := st.ifImplemented .ldxNFis (st.loadExchangeOrSkip (st.test 0 true) d s)

/-- `ldxf1is` (R149): tests `f1` = 1, optional. -/
def execLdxf1is (d s : Reg) (st : State) : Out := st.ifImplemented .ldxNFis (st.loadExchangeOrSkip (st.test 1 true) d s)

/-- `ldxf2is` (R149): tests `f2` = 1, optional. -/
def execLdxf2is (d s : Reg) (st : State) : Out := st.ifImplemented .ldxNFis (st.loadExchangeOrSkip (st.test 2 true) d s)

/-- `ldxf3is` (R149): tests `f3` = 1, optional. -/
def execLdxf3is (d s : Reg) (st : State) : Out := st.ifImplemented .ldxNFis (st.loadExchangeOrSkip (st.test 3 true) d s)

/-- `ldxzis` (R149): tests `z` = 1, optional. -/
def execLdxzis (d s : Reg) (st : State) : Out := st.ifImplemented .ldxNFis (st.loadExchangeOrSkip (st.test 4 true) d s)

/-- `ldxcis` (R149): tests `c` = 1, optional. -/
def execLdxcis (d s : Reg) (st : State) : Out := st.ifImplemented .ldxNFis (st.loadExchangeOrSkip (st.test 5 true) d s)

/-- `ldxsis` (R149): tests `s` = 1, optional. -/
def execLdxsis (d s : Reg) (st : State) : Out := st.ifImplemented .ldxNFis (st.loadExchangeOrSkip (st.test 6 true) d s)

/-- `ldxois` (R149): tests `o` = 1, optional. -/
def execLdxois (d s : Reg) (st : State) : Out := st.ifImplemented .ldxNFis (st.loadExchangeOrSkip (st.test 7 true) d s)

/-- `mvnf0` (R150): tests `f0` = 0. -/
def execMvnf0 (d s : Reg) (st : State) : Out := .next (st.moveIf (st.test 0 false) d s)

/-- `mvnf1` (R150): tests `f1` = 0. -/
def execMvnf1 (d s : Reg) (st : State) : Out := .next (st.moveIf (st.test 1 false) d s)

/-- `mvnf2` (R150): tests `f2` = 0. -/
def execMvnf2 (d s : Reg) (st : State) : Out := .next (st.moveIf (st.test 2 false) d s)

/-- `mvnf3` (R150): tests `f3` = 0. -/
def execMvnf3 (d s : Reg) (st : State) : Out := .next (st.moveIf (st.test 3 false) d s)

/-- `mvnz` (R150): tests `z` = 0. -/
def execMvnz (d s : Reg) (st : State) : Out := .next (st.moveIf (st.test 4 false) d s)

/-- `mvnc` (R150): tests `c` = 0. -/
def execMvnc (d s : Reg) (st : State) : Out := .next (st.moveIf (st.test 5 false) d s)

/-- `mvns` (R150): tests `s` = 0. -/
def execMvns (d s : Reg) (st : State) : Out := .next (st.moveIf (st.test 6 false) d s)

/-- `mvno` (R150): tests `o` = 0. -/
def execMvno (d s : Reg) (st : State) : Out := .next (st.moveIf (st.test 7 false) d s)

/-- `mvf0` (R150): tests `f0` = 1. -/
def execMvf0 (d s : Reg) (st : State) : Out := .next (st.moveIf (st.test 0 true) d s)

/-- `mvf1` (R150): tests `f1` = 1. -/
def execMvf1 (d s : Reg) (st : State) : Out := .next (st.moveIf (st.test 1 true) d s)

/-- `mvf2` (R150): tests `f2` = 1. -/
def execMvf2 (d s : Reg) (st : State) : Out := .next (st.moveIf (st.test 2 true) d s)

/-- `mvf3` (R150): tests `f3` = 1. -/
def execMvf3 (d s : Reg) (st : State) : Out := .next (st.moveIf (st.test 3 true) d s)

/-- `mvz` (R150): tests `z` = 1. -/
def execMvz (d s : Reg) (st : State) : Out := .next (st.moveIf (st.test 4 true) d s)

/-- `mvc` (R150): tests `c` = 1. -/
def execMvc (d s : Reg) (st : State) : Out := .next (st.moveIf (st.test 5 true) d s)

/-- `mvs` (R150): tests `s` = 1. -/
def execMvs (d s : Reg) (st : State) : Out := .next (st.moveIf (st.test 6 true) d s)

/-- `mvo` (R150): tests `o` = 1. -/
def execMvo (d s : Reg) (st : State) : Out := .next (st.moveIf (st.test 7 true) d s)

end Sys2Proof.Machine
end

