-- ==== Sys2Proof/Machine/LoadStore.lean ====
section
/-! DEFINITION. The instructions that read and write memory (41_load_store.md). None changes a flag or raises an
exception but IINSTR of an unimplemented one (R130). -/

namespace Sys2Proof.Machine

/-- `ld` (R131): loads a word from the address in `s` into `d`. -/
def execLd (d s : Reg) (st : State) : Out := .next (st.load d s)

/-- `ldb` (R132): loads a byte into the low byte of `d`; the high byte of `d` is kept. -/
def execLdb (d s : Reg) (st : State) : Out :=
  let b := st.readByte (st.reg s)
  .next (b.2.writeReg d (wordOf (highByte (st.reg d)) b.1))

/-- `ldis` (R133, R138): loads a word and adds 2 to the source. -/
def execLdis (d s : Reg) (st : State) : Out := .next (st.loadIncrement d s)

/-- `ldisx` (R134, R138), optional: loads a word, adds 2 to the source, exchanges the two registers. -/
def execLdisx (d s : Reg) (st : State) : Out := st.ifImplemented .ldisx (st.loadIncrementExchange d s)

/-- `sto` (R135): stores the word in `s` at the address in `d`. -/
def execSto (d s : Reg) (st : State) : Out := .next (st.writeWord .cpu (st.reg d) (st.reg s))

/-- `stob` (R136): stores the low byte of `s` at the address in `d`. -/
def execStob (d s : Reg) (st : State) : Out := .next (st.writeByte .cpu (st.reg d) (lowByte (st.reg s)))

/-- The effect of `ddsto` (R137): takes 2 from `d` and stores `s` at the new address. With both fields the same register
the stored word is free (R138, D8, log 9). -/
def State.decrementStore (st : State) (d s : Reg) : State :=
  let a := st.reg d - 2
  let t := st.writeReg d a
  if d = s then
    let v := t.drawWord
    v.2.writeWord .cpu a v.1
  else t.writeWord .cpu a (st.reg s)

/-- `ddsto` (R137, R138), optional: decrements the destination by 2 and stores the source there. -/
def execDdsto (d s : Reg) (st : State) : Out := st.ifImplemented .ddsto (st.decrementStore d s)

end Sys2Proof.Machine
end

