-- ==== Sys2Proof/Machine/Move.lean ====
section
/-! DEFINITION. The instructions that move values between registers (40_move.md). -/

namespace Sys2Proof.Machine

/-- `mv` (R120): copies `s` into `d`; no flag. -/
def execMv (d s : Reg) (st : State) : Out := .next (st.writeReg d (st.reg s))

/-- `exch` (R121): exchanges the two registers; no flag. -/
def execExch (d s : Reg) (st : State) : Out := .next (st.exchange d s)

/-- `csrr` (R122): reads CSR `s` into register `d`; no flag, no exception. -/
def execCsrr (d : Reg) (s : Csr) (st : State) : Out := .next (st.writeReg d (st.csrRead s))

/-- `csrw` (R123): writes register `s` to CSR `d`, as far as its bits can be written; no flag, no exception. -/
def execCsrw (d : Csr) (s : Reg) (st : State) : Out := .next (st.csrWrite d (st.reg s))

end Sys2Proof.Machine
end

