-- ==== Sys2Proof/Machine/Multiply.lean ====
section
/-! DEFINITION. The multiply instructions (44_multiply.md), all optional. The exact product is computed first and its
32-bit pattern split between the two registers (R190). -/

namespace Sys2Proof.Machine

/-- The lower 16 bits of a 32-bit pattern (R190). -/
def productLow (p : BitVec 32) : Word := p.extractLsb' 0 16

/-- The upper 16 bits of a 32-bit pattern (R190). -/
def productHigh (p : BitVec 32) : Word := p.extractLsb' 16 16

/-- Stores the two halves of a product, low half first, and signals the flags (R190, R196). With both fields the same
register the value that stays is a free word, and the flags are those of the product (R195, D8, log 8). -/
def State.putProduct (st : State) (d s : Reg) (p : BitVec 32) (q : ZCSO) : State :=
  if d = s then
    let v := st.drawWord
    (v.2.writeReg d v.1).setFlags2 d s q
  else ((st.writeReg d (productLow p)).writeReg s (productHigh p)).setFlags2 d s q

/-- The effect of the three multiplies with a signed product `p` (R191 to R193). -/
def State.putSignedProduct (st : State) (d s : Reg) (p : Int) : State :=
  let b := BitVec.ofInt 32 p
  st.putProduct d s b (mulSignedFlags p (productHigh b))

/-- `mulss` (R191), optional: both operands signed. -/
def execMulss (d s : Reg) (st : State) : Out :=
  st.ifImplemented .mulss (st.putSignedProduct d s ((st.reg d).toInt * (st.reg s).toInt))

/-- `mulsu` (R192), optional: `d` signed, `s` unsigned. -/
def execMulsu (d s : Reg) (st : State) : Out :=
  st.ifImplemented .mulsu (st.putSignedProduct d s ((st.reg d).toInt * ((st.reg s).toNat : Int)))

/-- `mulus` (R193), optional: `d` unsigned, `s` signed. -/
def execMulus (d s : Reg) (st : State) : Out :=
  st.ifImplemented .mulus (st.putSignedProduct d s (((st.reg d).toNat : Int) * (st.reg s).toInt))

/-- `muluu` (R194), optional: both operands unsigned. -/
def execMuluu (d s : Reg) (st : State) : Out :=
  let p := (st.reg d).toNat * (st.reg s).toNat
  let b := BitVec.ofNat 32 p
  st.ifImplemented .muluu (st.putProduct d s b (muluuFlags p (productHigh b)))

end Sys2Proof.Machine
end

