-- ==== Sys2Proof/Machine/Special.lean ====
section
/-! DEFINITION. The illegal instruction, the return from the handler, and the opcodes in no list (45_special.md). -/

namespace Sys2Proof.Machine

/-- `ill` (R200): both fields ignored; raises IZERO. -/
def execIll (_ _ : Reg) (st : State) : Out := .next (st.raise .izero)

/-- `reti` (R201): both fields ignored; the return from the handler. -/
def execReti (_ _ : Reg) (st : State) : Out := .next st.returnFromHandler

/-- Opcodes 0x22 to 0x23 (R203): every field ignored; raises IINSTR. -/
def execUnassigned22 (_ : Byte) (_ _ : Reg) (st : State) : Out := .next (st.raise .iinstr)

/-- Opcodes 0x24 to 0x27 (R203): every field ignored; raises IINSTR. -/
def execUnassigned24 (_ : Byte) (_ _ : Reg) (st : State) : Out := .next (st.raise .iinstr)

/-- Opcodes 0x28 to 0x2f (R203): every field ignored; raises IINSTR. -/
def execUnassigned28 (_ : Byte) (_ _ : Reg) (st : State) : Out := .next (st.raise .iinstr)

/-- Opcodes 0x30 to 0x3f (R203): every field ignored; raises IINSTR. -/
def execUnassigned30 (_ : Byte) (_ _ : Reg) (st : State) : Out := .next (st.raise .iinstr)

/-- Opcodes 0x40 to 0x7f (R203): every field ignored; raises IINSTR. -/
def execUnassigned40 (_ : Byte) (_ _ : Reg) (st : State) : Out := .next (st.raise .iinstr)

/-- Opcodes 0xd0 to 0xdf (R203): every field ignored; raises IINSTR. -/
def execUnassignedD0 (_ : Byte) (_ _ : Reg) (st : State) : Out := .next (st.raise .iinstr)

/-- Opcodes 0xe0 to 0xff (R203): every field ignored; raises IINSTR. -/
def execUnassignedE0 (_ : Byte) (_ _ : Reg) (st : State) : Out := .next (st.raise .iinstr)

end Sys2Proof.Machine
end

