-- ==== Sys2Proof/Machine/Dispatch.lean ====
section
/-! DEFINITION. One arm per instruction, each a call of its meaning. `pc` has already been advanced past the instruction
when `exec` runs (R8, R26). -/

namespace Sys2Proof.Machine

def exec (i : Instr) (s : State) : Host.Outcome State Fault Refusal :=
  match i with
  | .ill d t => Sys2Proof.Machine.execIll d t s
  | .add d t => Sys2Proof.Machine.execAdd d t s
  | .and d t => Sys2Proof.Machine.execAnd d t s
  | .csrr d t => Sys2Proof.Machine.execCsrr d t s
  | .csrw d t => Sys2Proof.Machine.execCsrw d t s
  | .dec1 d t => Sys2Proof.Machine.execDec1 d t s
  | .dec2 d t => Sys2Proof.Machine.execDec2 d t s
  | .exch d t => Sys2Proof.Machine.execExch d t s
  | .inc1 d t => Sys2Proof.Machine.execInc1 d t s
  | .inc2 d t => Sys2Proof.Machine.execInc2 d t s
  | .ld d t => Sys2Proof.Machine.execLd d t s
  | .ldb d t => Sys2Proof.Machine.execLdb d t s
  | .ldis d t => Sys2Proof.Machine.execLdis d t s
  | .ldisx d t => Sys2Proof.Machine.execLdisx d t s
  | .mv d t => Sys2Proof.Machine.execMv d t s
  | .neg d t => Sys2Proof.Machine.execNeg d t s
  | .not d t => Sys2Proof.Machine.execNot d t s
  | .or d t => Sys2Proof.Machine.execOr d t s
  | .shl d t => Sys2Proof.Machine.execShl d t s
  | .shr d t => Sys2Proof.Machine.execShr d t s
  | .shra d t => Sys2Proof.Machine.execShra d t s
  | .sto d t => Sys2Proof.Machine.execSto d t s
  | .stob d t => Sys2Proof.Machine.execStob d t s
  | .ddsto d t => Sys2Proof.Machine.execDdsto d t s
  | .sub d t => Sys2Proof.Machine.execSub d t s
  | .cmpu d t => Sys2Proof.Machine.execCmpu d t s
  | .xor d t => Sys2Proof.Machine.execXor d t s
  | .cmps d t => Sys2Proof.Machine.execCmps d t s
  | .reti d t => Sys2Proof.Machine.execReti d t s
  | .rev d t => Sys2Proof.Machine.execRev d t s
  | .mulss d t => Sys2Proof.Machine.execMulss d t s
  | .mulsu d t => Sys2Proof.Machine.execMulsu d t s
  | .mulus d t => Sys2Proof.Machine.execMulus d t s
  | .muluu d t => Sys2Proof.Machine.execMuluu d t s
  | .exchnf0 d t => Sys2Proof.Machine.execExchnf0 d t s
  | .exchnf1 d t => Sys2Proof.Machine.execExchnf1 d t s
  | .exchnf2 d t => Sys2Proof.Machine.execExchnf2 d t s
  | .exchnf3 d t => Sys2Proof.Machine.execExchnf3 d t s
  | .exchnz d t => Sys2Proof.Machine.execExchnz d t s
  | .exchnc d t => Sys2Proof.Machine.execExchnc d t s
  | .exchns d t => Sys2Proof.Machine.execExchns d t s
  | .exchno d t => Sys2Proof.Machine.execExchno d t s
  | .exchf0 d t => Sys2Proof.Machine.execExchf0 d t s
  | .exchf1 d t => Sys2Proof.Machine.execExchf1 d t s
  | .exchf2 d t => Sys2Proof.Machine.execExchf2 d t s
  | .exchf3 d t => Sys2Proof.Machine.execExchf3 d t s
  | .exchz d t => Sys2Proof.Machine.execExchz d t s
  | .exchc d t => Sys2Proof.Machine.execExchc d t s
  | .exchs d t => Sys2Proof.Machine.execExchs d t s
  | .excho d t => Sys2Proof.Machine.execExcho d t s
  | .ldnf0 d t => Sys2Proof.Machine.execLdnf0 d t s
  | .ldnf1 d t => Sys2Proof.Machine.execLdnf1 d t s
  | .ldnf2 d t => Sys2Proof.Machine.execLdnf2 d t s
  | .ldnf3 d t => Sys2Proof.Machine.execLdnf3 d t s
  | .ldnz d t => Sys2Proof.Machine.execLdnz d t s
  | .ldnc d t => Sys2Proof.Machine.execLdnc d t s
  | .ldns d t => Sys2Proof.Machine.execLdns d t s
  | .ldno d t => Sys2Proof.Machine.execLdno d t s
  | .ldf0 d t => Sys2Proof.Machine.execLdf0 d t s
  | .ldf1 d t => Sys2Proof.Machine.execLdf1 d t s
  | .ldf2 d t => Sys2Proof.Machine.execLdf2 d t s
  | .ldf3 d t => Sys2Proof.Machine.execLdf3 d t s
  | .ldz d t => Sys2Proof.Machine.execLdz d t s
  | .ldc d t => Sys2Proof.Machine.execLdc d t s
  | .lds d t => Sys2Proof.Machine.execLds d t s
  | .ldo d t => Sys2Proof.Machine.execLdo d t s
  | .ldnf0is d t => Sys2Proof.Machine.execLdnf0is d t s
  | .ldnf1is d t => Sys2Proof.Machine.execLdnf1is d t s
  | .ldnf2is d t => Sys2Proof.Machine.execLdnf2is d t s
  | .ldnf3is d t => Sys2Proof.Machine.execLdnf3is d t s
  | .ldnzis d t => Sys2Proof.Machine.execLdnzis d t s
  | .ldncis d t => Sys2Proof.Machine.execLdncis d t s
  | .ldnsis d t => Sys2Proof.Machine.execLdnsis d t s
  | .ldnois d t => Sys2Proof.Machine.execLdnois d t s
  | .ldf0is d t => Sys2Proof.Machine.execLdf0is d t s
  | .ldf1is d t => Sys2Proof.Machine.execLdf1is d t s
  | .ldf2is d t => Sys2Proof.Machine.execLdf2is d t s
  | .ldf3is d t => Sys2Proof.Machine.execLdf3is d t s
  | .ldzis d t => Sys2Proof.Machine.execLdzis d t s
  | .ldcis d t => Sys2Proof.Machine.execLdcis d t s
  | .ldsis d t => Sys2Proof.Machine.execLdsis d t s
  | .ldois d t => Sys2Proof.Machine.execLdois d t s
  | .ldxnf0is d t => Sys2Proof.Machine.execLdxnf0is d t s
  | .ldxnf1is d t => Sys2Proof.Machine.execLdxnf1is d t s
  | .ldxnf2is d t => Sys2Proof.Machine.execLdxnf2is d t s
  | .ldxnf3is d t => Sys2Proof.Machine.execLdxnf3is d t s
  | .ldxnzis d t => Sys2Proof.Machine.execLdxnzis d t s
  | .ldxncis d t => Sys2Proof.Machine.execLdxncis d t s
  | .ldxnsis d t => Sys2Proof.Machine.execLdxnsis d t s
  | .ldxnois d t => Sys2Proof.Machine.execLdxnois d t s
  | .ldxf0is d t => Sys2Proof.Machine.execLdxf0is d t s
  | .ldxf1is d t => Sys2Proof.Machine.execLdxf1is d t s
  | .ldxf2is d t => Sys2Proof.Machine.execLdxf2is d t s
  | .ldxf3is d t => Sys2Proof.Machine.execLdxf3is d t s
  | .ldxzis d t => Sys2Proof.Machine.execLdxzis d t s
  | .ldxcis d t => Sys2Proof.Machine.execLdxcis d t s
  | .ldxsis d t => Sys2Proof.Machine.execLdxsis d t s
  | .ldxois d t => Sys2Proof.Machine.execLdxois d t s
  | .mvnf0 d t => Sys2Proof.Machine.execMvnf0 d t s
  | .mvnf1 d t => Sys2Proof.Machine.execMvnf1 d t s
  | .mvnf2 d t => Sys2Proof.Machine.execMvnf2 d t s
  | .mvnf3 d t => Sys2Proof.Machine.execMvnf3 d t s
  | .mvnz d t => Sys2Proof.Machine.execMvnz d t s
  | .mvnc d t => Sys2Proof.Machine.execMvnc d t s
  | .mvns d t => Sys2Proof.Machine.execMvns d t s
  | .mvno d t => Sys2Proof.Machine.execMvno d t s
  | .mvf0 d t => Sys2Proof.Machine.execMvf0 d t s
  | .mvf1 d t => Sys2Proof.Machine.execMvf1 d t s
  | .mvf2 d t => Sys2Proof.Machine.execMvf2 d t s
  | .mvf3 d t => Sys2Proof.Machine.execMvf3 d t s
  | .mvz d t => Sys2Proof.Machine.execMvz d t s
  | .mvc d t => Sys2Proof.Machine.execMvc d t s
  | .mvs d t => Sys2Proof.Machine.execMvs d t s
  | .mvo d t => Sys2Proof.Machine.execMvo d t s
  | .unassigned22 op d t => Sys2Proof.Machine.execUnassigned22 op d t s
  | .unassigned24 op d t => Sys2Proof.Machine.execUnassigned24 op d t s
  | .unassigned28 op d t => Sys2Proof.Machine.execUnassigned28 op d t s
  | .unassigned30 op d t => Sys2Proof.Machine.execUnassigned30 op d t s
  | .unassigned40 op d t => Sys2Proof.Machine.execUnassigned40 op d t s
  | .unassignedD0 op d t => Sys2Proof.Machine.execUnassignedD0 op d t s
  | .unassignedE0 op d t => Sys2Proof.Machine.execUnassignedE0 op d t s

end Sys2Proof.Machine
end

