-- ==== Sys2Proof/Machine/Events.lean ====
section
/-! DEFINITION. What the agents other than the CPU do between its steps: the system clock, the keyboard controller, the
display controller, the CDI, reset (60_exceptions.md, 70_reset_and_hazards.md). -/

namespace Sys2Proof.Machine

/-- A hardware interrupt on bit `b` of `f` (R238): the bit is set whatever `ie` is, `H` becomes 1, REASON stays; events are
not counted (D21, log 31). -/
def State.deviceInterrupt (s : State) (b : Nat) : State :=
  (s.putReg .f (withBit s.f b true)).putCsr0 (withH s.csrs.csr0 true)

/-- A tick of the system clock (R257, R258): the counter wraps, and `iclk` is set. -/
def State.clockTick (s : State) : State := (s.putClk (s.clk + 1)).deviceInterrupt 10

/-- The keyboard delivers a byte (R263, R264); with the previous one unacknowledged the model stops (D24, log 12). -/
def State.keyReceived (s : State) (b : Byte) : Out :=
  if s.kbd.received then .fault .keyboardOverrun
  else .next ((s.putKbd { s.kbd with rxd := b, received := true }).deviceInterrupt 11)

/-- The byte in transmission has been sent (R262, R264); with none in transmission the model stops (log 12). -/
def State.keySent (s : State) : Out :=
  if s.kbd.ready then .fault .noTransmission
  else .next ((s.putKbd { s.kbd with ready := true }).deviceInterrupt 11)

/-- The blink period byte, the last of the video memory (R269). -/
def State.blinkPeriod (s : State) : Byte := s.mem.read (Config.videoAddr.toNat + 6913)

/-- One frame has been shown (R269): after as many frames as the period byte says the colours are exchanged; with the
period 0 nothing is counted (log 5). -/
def State.frame (s : State) : State :=
  if s.blinkPeriod = 0 then s
  else if s.blinkPeriod.toNat ≤ s.display.frames.toNat + 1 then
    s.putDisplay { phase := !s.display.phase, frames := 0 }
  else s.putDisplay { s.display with frames := s.display.frames + 1 }

/-- The host sets a register (R273); setting `f` with bit 9 clear ends a halt (R249). -/
def State.cdiSetReg (s : State) (r : Reg) (v : Word) : State :=
  if r = .f ∧ v.getLsbD 9 = false then (s.putReg r v).putHalted false else s.putReg r v

/-- A command of the host (R272 to R276). A CSR write obeys the write rules of `csrw` (R273), a memory access goes through
the address map (R274) and is not bound by ROM_RANGE (R76). -/
def State.cdi (s : State) : CdiCommand → State
  | .readReg r => s.reply (.reg r (s.reg r))
  | .setReg r v => s.cdiSetReg r v
  | .readCsr c => s.reply (.csr c (s.csrRead c))
  | .setCsr c v => s.csrWrite c v
  | .readMem a => (s.readByte a).2.reply (.mem a (s.readByte a).1)
  | .writeMem a b => s.writeByte .cdi a b
  | .stop => s.putRun .stopped
  | .run => s.putRun .running
  | .step => s.putRun .singleStep

/-- A reset that is not a power-up (R280 to R285): registers 0, not halted, running (D17, log 19), `READY.T` 1, RAM kept
(D16); what the spec does not state takes free values (log 3), bits 15:9 of `csr0` staying 0 (R40). -/
def State.resetEvent (s : State) : State :=
  { s with
    regs := Regs.zero
    csrs :=
      { csr0 := Config.freeWord s.draws &&& 0x01ff#16
        csr1 := Config.freeWord (s.draws + 1)
        csr2 := Config.freeWord (s.draws + 2)
        csr3 := Config.freeWord (s.draws + 3)
        csr4 := Config.freeWord (s.draws + 4)
        csr5 := Config.freeWord (s.draws + 5) }
    halted := false
    run := .running
    clk := Config.freeWord (s.draws + 6)
    kbd :=
      { rxd := Config.freeByte (s.draws + 7) (Config.kbdAddr + 1)
        received := Config.freeFlag (s.draws + 8)
        ready := true
        txd := Config.freeByte (s.draws + 9) Config.kbdAddr }
    display :=
      { phase := Config.freeFlag (s.draws + 10)
        frames := Config.freeByte (s.draws + 11) Config.videoAddr }
    draws := s.draws + 12 }

/-- An event takes place. -/
def applyEvent (e : Event) (s : State) : Out :=
  match e with
  | .clockTick => .next s.clockTick
  | .keyReceived b => s.keyReceived b
  | .keySent => s.keySent
  | .frame => .next s.frame
  | .cdi c => .next (s.cdi c)
  | .reset => .next s.resetEvent

end Sys2Proof.Machine
end

