-- ==== Sys2Proof/WellFormed.lean ====
section
/-! DEFINITION. Which terms of Instr are instructions. Register fields never make an encoding illegal (R103); the one
thing a term can get wrong is an opcode byte outside its row of unassigned opcodes (R203). -/

namespace Sys2Proof

/-- The opcode byte lies in the row's range, ends included. -/
def inRange (lo hi op : Byte) : Bool := lo ≤ op && op ≤ hi

/-- Every named instruction is well formed for every register; an unassigned row checks its opcode byte (R203). -/
def Instr.wf : Instr → Bool
  | .ill _ _ => true
  | .add _ _ => true
  | .and _ _ => true
  | .csrr _ _ => true
  | .csrw _ _ => true
  | .dec1 _ _ => true
  | .dec2 _ _ => true
  | .exch _ _ => true
  | .inc1 _ _ => true
  | .inc2 _ _ => true
  | .ld _ _ => true
  | .ldb _ _ => true
  | .ldis _ _ => true
  | .ldisx _ _ => true
  | .mv _ _ => true
  | .neg _ _ => true
  | .not _ _ => true
  | .or _ _ => true
  | .shl _ _ => true
  | .shr _ _ => true
  | .shra _ _ => true
  | .sto _ _ => true
  | .stob _ _ => true
  | .ddsto _ _ => true
  | .sub _ _ => true
  | .cmpu _ _ => true
  | .xor _ _ => true
  | .cmps _ _ => true
  | .reti _ _ => true
  | .rev _ _ => true
  | .mulss _ _ => true
  | .mulsu _ _ => true
  | .mulus _ _ => true
  | .muluu _ _ => true
  | .exchnf0 _ _ => true
  | .exchnf1 _ _ => true
  | .exchnf2 _ _ => true
  | .exchnf3 _ _ => true
  | .exchnz _ _ => true
  | .exchnc _ _ => true
  | .exchns _ _ => true
  | .exchno _ _ => true
  | .exchf0 _ _ => true
  | .exchf1 _ _ => true
  | .exchf2 _ _ => true
  | .exchf3 _ _ => true
  | .exchz _ _ => true
  | .exchc _ _ => true
  | .exchs _ _ => true
  | .excho _ _ => true
  | .ldnf0 _ _ => true
  | .ldnf1 _ _ => true
  | .ldnf2 _ _ => true
  | .ldnf3 _ _ => true
  | .ldnz _ _ => true
  | .ldnc _ _ => true
  | .ldns _ _ => true
  | .ldno _ _ => true
  | .ldf0 _ _ => true
  | .ldf1 _ _ => true
  | .ldf2 _ _ => true
  | .ldf3 _ _ => true
  | .ldz _ _ => true
  | .ldc _ _ => true
  | .lds _ _ => true
  | .ldo _ _ => true
  | .ldnf0is _ _ => true
  | .ldnf1is _ _ => true
  | .ldnf2is _ _ => true
  | .ldnf3is _ _ => true
  | .ldnzis _ _ => true
  | .ldncis _ _ => true
  | .ldnsis _ _ => true
  | .ldnois _ _ => true
  | .ldf0is _ _ => true
  | .ldf1is _ _ => true
  | .ldf2is _ _ => true
  | .ldf3is _ _ => true
  | .ldzis _ _ => true
  | .ldcis _ _ => true
  | .ldsis _ _ => true
  | .ldois _ _ => true
  | .ldxnf0is _ _ => true
  | .ldxnf1is _ _ => true
  | .ldxnf2is _ _ => true
  | .ldxnf3is _ _ => true
  | .ldxnzis _ _ => true
  | .ldxncis _ _ => true
  | .ldxnsis _ _ => true
  | .ldxnois _ _ => true
  | .ldxf0is _ _ => true
  | .ldxf1is _ _ => true
  | .ldxf2is _ _ => true
  | .ldxf3is _ _ => true
  | .ldxzis _ _ => true
  | .ldxcis _ _ => true
  | .ldxsis _ _ => true
  | .ldxois _ _ => true
  | .mvnf0 _ _ => true
  | .mvnf1 _ _ => true
  | .mvnf2 _ _ => true
  | .mvnf3 _ _ => true
  | .mvnz _ _ => true
  | .mvnc _ _ => true
  | .mvns _ _ => true
  | .mvno _ _ => true
  | .mvf0 _ _ => true
  | .mvf1 _ _ => true
  | .mvf2 _ _ => true
  | .mvf3 _ _ => true
  | .mvz _ _ => true
  | .mvc _ _ => true
  | .mvs _ _ => true
  | .mvo _ _ => true
  | .unassigned22 op _ _ => inRange 0x22 0x23 op
  | .unassigned24 op _ _ => inRange 0x24 0x27 op
  | .unassigned28 op _ _ => inRange 0x28 0x2f op
  | .unassigned30 op _ _ => inRange 0x30 0x3f op
  | .unassigned40 op _ _ => inRange 0x40 0x7f op
  | .unassignedD0 op _ _ => inRange 0xd0 0xdf op
  | .unassignedE0 op _ _ => inRange 0xe0 0xff op

end Sys2Proof
end

