-- ==== Sys2Proof/Decode.lean ====
section
/-! DEFINITION. From bytes to instructions and back (R90 to R103). Every opcode byte has a row, so a pair of bytes always
decodes; a byte list is rejected, by name, only when it is too short to hold an instruction (R94). -/

namespace Sys2Proof

/-- The register a 4-bit field names (R20, R21, R91). -/
def regOfField (n : BitVec 4) : Reg :=
  match n.toNat with
  | 0 => .r0
  | 1 => .r1
  | 2 => .r2
  | 3 => .r3
  | 4 => .r4
  | 5 => .r5
  | 6 => .r6
  | 7 => .r7
  | 8 => .r8
  | 9 => .r9
  | 10 => .r10
  | 11 => .sp
  | 12 => .ca
  | 13 => .ia
  | 14 => .f
  | _ => .pc

/-- The 4-bit field that names a register (R21). -/
def fieldOfReg : Reg → BitVec 4
  | .r0 => 0
  | .r1 => 1
  | .r2 => 2
  | .r3 => 3
  | .r4 => 4
  | .r5 => 5
  | .r6 => 6
  | .r7 => 7
  | .r8 => 8
  | .r9 => 9
  | .r10 => 10
  | .sp => 11
  | .ca => 12
  | .ia => 13
  | .f => 14
  | .pc => 15

/-- The CSR a 4-bit field names (R37, R91). -/
def csrOfField (n : BitVec 4) : Csr :=
  match n.toNat with
  | 0 => .csr0
  | 1 => .csr1
  | 2 => .csr2
  | 3 => .csr3
  | 4 => .csr4
  | 5 => .csr5
  | 6 => .csr6
  | 7 => .csr7
  | 8 => .csr8
  | 9 => .csr9
  | 10 => .csr10
  | 11 => .csr11
  | 12 => .csr12
  | 13 => .csr13
  | 14 => .csr14
  | _ => .csr15

/-- The 4-bit field that names a CSR. -/
def fieldOfCsr : Csr → BitVec 4
  | .csr0 => 0
  | .csr1 => 1
  | .csr2 => 2
  | .csr3 => 3
  | .csr4 => 4
  | .csr5 => 5
  | .csr6 => 6
  | .csr7 => 7
  | .csr8 => 8
  | .csr9 => 9
  | .csr10 => 10
  | .csr11 => 11
  | .csr12 => 12
  | .csr13 => 13
  | .csr14 => 14
  | .csr15 => 15

/-- Opcodes with bit 7 = 0 (R92, R97); from 0x22 on they are unassigned (R102). -/
def decodeUnconditional (op : Byte) (d s : BitVec 4) : Instr :=
  match op.toNat with
  | 0x00 => .ill (regOfField d) (regOfField s)
  | 0x01 => .add (regOfField d) (regOfField s)
  | 0x02 => .and (regOfField d) (regOfField s)
  | 0x03 => .csrr (regOfField d) (csrOfField s)
  | 0x04 => .csrw (csrOfField d) (regOfField s)
  | 0x05 => .dec1 (regOfField d) (regOfField s)
  | 0x06 => .dec2 (regOfField d) (regOfField s)
  | 0x07 => .exch (regOfField d) (regOfField s)
  | 0x08 => .inc1 (regOfField d) (regOfField s)
  | 0x09 => .inc2 (regOfField d) (regOfField s)
  | 0x0a => .ld (regOfField d) (regOfField s)
  | 0x0b => .ldb (regOfField d) (regOfField s)
  | 0x0c => .ldis (regOfField d) (regOfField s)
  | 0x0d => .ldisx (regOfField d) (regOfField s)
  | 0x0e => .mv (regOfField d) (regOfField s)
  | 0x0f => .neg (regOfField d) (regOfField s)
  | 0x10 => .not (regOfField d) (regOfField s)
  | 0x11 => .or (regOfField d) (regOfField s)
  | 0x12 => .shl (regOfField d) (regOfField s)
  | 0x13 => .shr (regOfField d) (regOfField s)
  | 0x14 => .shra (regOfField d) (regOfField s)
  | 0x15 => .sto (regOfField d) (regOfField s)
  | 0x16 => .stob (regOfField d) (regOfField s)
  | 0x17 => .ddsto (regOfField d) (regOfField s)
  | 0x18 => .sub (regOfField d) (regOfField s)
  | 0x19 => .cmpu (regOfField d) (regOfField s)
  | 0x1a => .xor (regOfField d) (regOfField s)
  | 0x1b => .cmps (regOfField d) (regOfField s)
  | 0x1c => .reti (regOfField d) (regOfField s)
  | 0x1d => .rev (regOfField d) (regOfField s)
  | 0x1e => .mulss (regOfField d) (regOfField s)
  | 0x1f => .mulsu (regOfField d) (regOfField s)
  | 0x20 => .mulus (regOfField d) (regOfField s)
  | 0x21 => .muluu (regOfField d) (regOfField s)
  | n =>
    if n < 0x24 then .unassigned22 op (regOfField d) (regOfField s)
    else if n < 0x28 then .unassigned24 op (regOfField d) (regOfField s)
    else if n < 0x30 then .unassigned28 op (regOfField d) (regOfField s)
    else if n < 0x40 then .unassigned30 op (regOfField d) (regOfField s)
    else .unassigned40 op (regOfField d) (regOfField s)

/-- The family `exchNF` by its condition, opcode bits 3:0 (R93, R99, R100). -/
def decodeExchNF (cond : BitVec 4) (d s : Reg) : Instr :=
  match cond.toNat with
  | 0 => .exchnf0 d s
  | 1 => .exchnf1 d s
  | 2 => .exchnf2 d s
  | 3 => .exchnf3 d s
  | 4 => .exchnz d s
  | 5 => .exchnc d s
  | 6 => .exchns d s
  | 7 => .exchno d s
  | 8 => .exchf0 d s
  | 9 => .exchf1 d s
  | 10 => .exchf2 d s
  | 11 => .exchf3 d s
  | 12 => .exchz d s
  | 13 => .exchc d s
  | 14 => .exchs d s
  | _ => .excho d s

/-- The family `ldNF` by its condition, opcode bits 3:0 (R93, R99, R100). -/
def decodeLdNF (cond : BitVec 4) (d s : Reg) : Instr :=
  match cond.toNat with
  | 0 => .ldnf0 d s
  | 1 => .ldnf1 d s
  | 2 => .ldnf2 d s
  | 3 => .ldnf3 d s
  | 4 => .ldnz d s
  | 5 => .ldnc d s
  | 6 => .ldns d s
  | 7 => .ldno d s
  | 8 => .ldf0 d s
  | 9 => .ldf1 d s
  | 10 => .ldf2 d s
  | 11 => .ldf3 d s
  | 12 => .ldz d s
  | 13 => .ldc d s
  | 14 => .lds d s
  | _ => .ldo d s

/-- The family `ldNFis` by its condition, opcode bits 3:0 (R93, R99, R100). -/
def decodeLdNFis (cond : BitVec 4) (d s : Reg) : Instr :=
  match cond.toNat with
  | 0 => .ldnf0is d s
  | 1 => .ldnf1is d s
  | 2 => .ldnf2is d s
  | 3 => .ldnf3is d s
  | 4 => .ldnzis d s
  | 5 => .ldncis d s
  | 6 => .ldnsis d s
  | 7 => .ldnois d s
  | 8 => .ldf0is d s
  | 9 => .ldf1is d s
  | 10 => .ldf2is d s
  | 11 => .ldf3is d s
  | 12 => .ldzis d s
  | 13 => .ldcis d s
  | 14 => .ldsis d s
  | _ => .ldois d s

/-- The family `ldxNFis` by its condition, opcode bits 3:0 (R93, R99, R100). -/
def decodeLdxNFis (cond : BitVec 4) (d s : Reg) : Instr :=
  match cond.toNat with
  | 0 => .ldxnf0is d s
  | 1 => .ldxnf1is d s
  | 2 => .ldxnf2is d s
  | 3 => .ldxnf3is d s
  | 4 => .ldxnzis d s
  | 5 => .ldxncis d s
  | 6 => .ldxnsis d s
  | 7 => .ldxnois d s
  | 8 => .ldxf0is d s
  | 9 => .ldxf1is d s
  | 10 => .ldxf2is d s
  | 11 => .ldxf3is d s
  | 12 => .ldxzis d s
  | 13 => .ldxcis d s
  | 14 => .ldxsis d s
  | _ => .ldxois d s

/-- The family `mvNF` by its condition, opcode bits 3:0 (R93, R99, R100). -/
def decodeMvNF (cond : BitVec 4) (d s : Reg) : Instr :=
  match cond.toNat with
  | 0 => .mvnf0 d s
  | 1 => .mvnf1 d s
  | 2 => .mvnf2 d s
  | 3 => .mvnf3 d s
  | 4 => .mvnz d s
  | 5 => .mvnc d s
  | 6 => .mvns d s
  | 7 => .mvno d s
  | 8 => .mvf0 d s
  | 9 => .mvf1 d s
  | 10 => .mvf2 d s
  | 11 => .mvf3 d s
  | 12 => .mvz d s
  | 13 => .mvc d s
  | 14 => .mvs d s
  | _ => .mvo d s

/-- Opcodes with bit 7 = 1: `OP` in bits 6:4 selects the family, `COND` in bits 3:0 the condition (R93, R98); `OP` = 5, 6
and 7 are unassigned (C7, R102). -/
def decodeConditional (op : Byte) (d s : BitVec 4) : Instr :=
  match (op.extractLsb' 4 3).toNat with
  | 0 => decodeExchNF (op.extractLsb' 0 4) (regOfField d) (regOfField s)
  | 1 => decodeLdNF (op.extractLsb' 0 4) (regOfField d) (regOfField s)
  | 2 => decodeLdNFis (op.extractLsb' 0 4) (regOfField d) (regOfField s)
  | 3 => decodeLdxNFis (op.extractLsb' 0 4) (regOfField d) (regOfField s)
  | 4 => decodeMvNF (op.extractLsb' 0 4) (regOfField d) (regOfField s)
  | 5 => .unassignedD0 op (regOfField d) (regOfField s)
  | _ => .unassignedE0 op (regOfField d) (regOfField s)

/-- The instruction whose first byte is the opcode and whose second byte is `DSTR` then `SRCR` (R61, R90). -/
def decodeInstr (op ds : Byte) : Instr :=
  if op.getLsbD 7 then decodeConditional op (ds.extractLsb' 4 4) (ds.extractLsb' 0 4)
  else decodeUnconditional op (ds.extractLsb' 4 4) (ds.extractLsb' 0 4)

/-- Why a list of bytes holds no instruction: fewer than two bytes (R94). -/
inductive DecodeError where
  | tooShort
  deriving DecidableEq, Repr

/-- The instruction at the front of a byte list, lowest address first, and the bytes after it. -/
def decode : List Byte → Except DecodeError (Instr × List Byte)
  | op :: ds :: rest => .ok (decodeInstr op ds, rest)
  | _ => .error .tooShort

/-- The opcode byte of an instruction (R97, R98, R100). -/
def Instr.opcode : Instr → Byte
  | .ill _ _ => 0x00
  | .add _ _ => 0x01
  | .and _ _ => 0x02
  | .csrr _ _ => 0x03
  | .csrw _ _ => 0x04
  | .dec1 _ _ => 0x05
  | .dec2 _ _ => 0x06
  | .exch _ _ => 0x07
  | .inc1 _ _ => 0x08
  | .inc2 _ _ => 0x09
  | .ld _ _ => 0x0a
  | .ldb _ _ => 0x0b
  | .ldis _ _ => 0x0c
  | .ldisx _ _ => 0x0d
  | .mv _ _ => 0x0e
  | .neg _ _ => 0x0f
  | .not _ _ => 0x10
  | .or _ _ => 0x11
  | .shl _ _ => 0x12
  | .shr _ _ => 0x13
  | .shra _ _ => 0x14
  | .sto _ _ => 0x15
  | .stob _ _ => 0x16
  | .ddsto _ _ => 0x17
  | .sub _ _ => 0x18
  | .cmpu _ _ => 0x19
  | .xor _ _ => 0x1a
  | .cmps _ _ => 0x1b
  | .reti _ _ => 0x1c
  | .rev _ _ => 0x1d
  | .mulss _ _ => 0x1e
  | .mulsu _ _ => 0x1f
  | .mulus _ _ => 0x20
  | .muluu _ _ => 0x21
  | .exchnf0 _ _ => 0x80
  | .exchnf1 _ _ => 0x81
  | .exchnf2 _ _ => 0x82
  | .exchnf3 _ _ => 0x83
  | .exchnz _ _ => 0x84
  | .exchnc _ _ => 0x85
  | .exchns _ _ => 0x86
  | .exchno _ _ => 0x87
  | .exchf0 _ _ => 0x88
  | .exchf1 _ _ => 0x89
  | .exchf2 _ _ => 0x8a
  | .exchf3 _ _ => 0x8b
  | .exchz _ _ => 0x8c
  | .exchc _ _ => 0x8d
  | .exchs _ _ => 0x8e
  | .excho _ _ => 0x8f
  | .ldnf0 _ _ => 0x90
  | .ldnf1 _ _ => 0x91
  | .ldnf2 _ _ => 0x92
  | .ldnf3 _ _ => 0x93
  | .ldnz _ _ => 0x94
  | .ldnc _ _ => 0x95
  | .ldns _ _ => 0x96
  | .ldno _ _ => 0x97
  | .ldf0 _ _ => 0x98
  | .ldf1 _ _ => 0x99
  | .ldf2 _ _ => 0x9a
  | .ldf3 _ _ => 0x9b
  | .ldz _ _ => 0x9c
  | .ldc _ _ => 0x9d
  | .lds _ _ => 0x9e
  | .ldo _ _ => 0x9f
  | .ldnf0is _ _ => 0xa0
  | .ldnf1is _ _ => 0xa1
  | .ldnf2is _ _ => 0xa2
  | .ldnf3is _ _ => 0xa3
  | .ldnzis _ _ => 0xa4
  | .ldncis _ _ => 0xa5
  | .ldnsis _ _ => 0xa6
  | .ldnois _ _ => 0xa7
  | .ldf0is _ _ => 0xa8
  | .ldf1is _ _ => 0xa9
  | .ldf2is _ _ => 0xaa
  | .ldf3is _ _ => 0xab
  | .ldzis _ _ => 0xac
  | .ldcis _ _ => 0xad
  | .ldsis _ _ => 0xae
  | .ldois _ _ => 0xaf
  | .ldxnf0is _ _ => 0xb0
  | .ldxnf1is _ _ => 0xb1
  | .ldxnf2is _ _ => 0xb2
  | .ldxnf3is _ _ => 0xb3
  | .ldxnzis _ _ => 0xb4
  | .ldxncis _ _ => 0xb5
  | .ldxnsis _ _ => 0xb6
  | .ldxnois _ _ => 0xb7
  | .ldxf0is _ _ => 0xb8
  | .ldxf1is _ _ => 0xb9
  | .ldxf2is _ _ => 0xba
  | .ldxf3is _ _ => 0xbb
  | .ldxzis _ _ => 0xbc
  | .ldxcis _ _ => 0xbd
  | .ldxsis _ _ => 0xbe
  | .ldxois _ _ => 0xbf
  | .mvnf0 _ _ => 0xc0
  | .mvnf1 _ _ => 0xc1
  | .mvnf2 _ _ => 0xc2
  | .mvnf3 _ _ => 0xc3
  | .mvnz _ _ => 0xc4
  | .mvnc _ _ => 0xc5
  | .mvns _ _ => 0xc6
  | .mvno _ _ => 0xc7
  | .mvf0 _ _ => 0xc8
  | .mvf1 _ _ => 0xc9
  | .mvf2 _ _ => 0xca
  | .mvf3 _ _ => 0xcb
  | .mvz _ _ => 0xcc
  | .mvc _ _ => 0xcd
  | .mvs _ _ => 0xce
  | .mvo _ _ => 0xcf
  | .unassigned22 op _ _ => op
  | .unassigned24 op _ _ => op
  | .unassigned28 op _ _ => op
  | .unassigned30 op _ _ => op
  | .unassigned40 op _ _ => op
  | .unassignedD0 op _ _ => op
  | .unassignedE0 op _ _ => op

/-- The byte `DSTR` then `SRCR` of an instruction (R90, R104). -/
def Instr.fields : Instr → Byte
  | .ill d s => fieldOfReg d ++ fieldOfReg s
  | .add d s => fieldOfReg d ++ fieldOfReg s
  | .and d s => fieldOfReg d ++ fieldOfReg s
  | .csrr d s => fieldOfReg d ++ fieldOfCsr s
  | .csrw d s => fieldOfCsr d ++ fieldOfReg s
  | .dec1 d s => fieldOfReg d ++ fieldOfReg s
  | .dec2 d s => fieldOfReg d ++ fieldOfReg s
  | .exch d s => fieldOfReg d ++ fieldOfReg s
  | .inc1 d s => fieldOfReg d ++ fieldOfReg s
  | .inc2 d s => fieldOfReg d ++ fieldOfReg s
  | .ld d s => fieldOfReg d ++ fieldOfReg s
  | .ldb d s => fieldOfReg d ++ fieldOfReg s
  | .ldis d s => fieldOfReg d ++ fieldOfReg s
  | .ldisx d s => fieldOfReg d ++ fieldOfReg s
  | .mv d s => fieldOfReg d ++ fieldOfReg s
  | .neg d s => fieldOfReg d ++ fieldOfReg s
  | .not d s => fieldOfReg d ++ fieldOfReg s
  | .or d s => fieldOfReg d ++ fieldOfReg s
  | .shl d s => fieldOfReg d ++ fieldOfReg s
  | .shr d s => fieldOfReg d ++ fieldOfReg s
  | .shra d s => fieldOfReg d ++ fieldOfReg s
  | .sto d s => fieldOfReg d ++ fieldOfReg s
  | .stob d s => fieldOfReg d ++ fieldOfReg s
  | .ddsto d s => fieldOfReg d ++ fieldOfReg s
  | .sub d s => fieldOfReg d ++ fieldOfReg s
  | .cmpu d s => fieldOfReg d ++ fieldOfReg s
  | .xor d s => fieldOfReg d ++ fieldOfReg s
  | .cmps d s => fieldOfReg d ++ fieldOfReg s
  | .reti d s => fieldOfReg d ++ fieldOfReg s
  | .rev d s => fieldOfReg d ++ fieldOfReg s
  | .mulss d s => fieldOfReg d ++ fieldOfReg s
  | .mulsu d s => fieldOfReg d ++ fieldOfReg s
  | .mulus d s => fieldOfReg d ++ fieldOfReg s
  | .muluu d s => fieldOfReg d ++ fieldOfReg s
  | .exchnf0 d s => fieldOfReg d ++ fieldOfReg s
  | .exchnf1 d s => fieldOfReg d ++ fieldOfReg s
  | .exchnf2 d s => fieldOfReg d ++ fieldOfReg s
  | .exchnf3 d s => fieldOfReg d ++ fieldOfReg s
  | .exchnz d s => fieldOfReg d ++ fieldOfReg s
  | .exchnc d s => fieldOfReg d ++ fieldOfReg s
  | .exchns d s => fieldOfReg d ++ fieldOfReg s
  | .exchno d s => fieldOfReg d ++ fieldOfReg s
  | .exchf0 d s => fieldOfReg d ++ fieldOfReg s
  | .exchf1 d s => fieldOfReg d ++ fieldOfReg s
  | .exchf2 d s => fieldOfReg d ++ fieldOfReg s
  | .exchf3 d s => fieldOfReg d ++ fieldOfReg s
  | .exchz d s => fieldOfReg d ++ fieldOfReg s
  | .exchc d s => fieldOfReg d ++ fieldOfReg s
  | .exchs d s => fieldOfReg d ++ fieldOfReg s
  | .excho d s => fieldOfReg d ++ fieldOfReg s
  | .ldnf0 d s => fieldOfReg d ++ fieldOfReg s
  | .ldnf1 d s => fieldOfReg d ++ fieldOfReg s
  | .ldnf2 d s => fieldOfReg d ++ fieldOfReg s
  | .ldnf3 d s => fieldOfReg d ++ fieldOfReg s
  | .ldnz d s => fieldOfReg d ++ fieldOfReg s
  | .ldnc d s => fieldOfReg d ++ fieldOfReg s
  | .ldns d s => fieldOfReg d ++ fieldOfReg s
  | .ldno d s => fieldOfReg d ++ fieldOfReg s
  | .ldf0 d s => fieldOfReg d ++ fieldOfReg s
  | .ldf1 d s => fieldOfReg d ++ fieldOfReg s
  | .ldf2 d s => fieldOfReg d ++ fieldOfReg s
  | .ldf3 d s => fieldOfReg d ++ fieldOfReg s
  | .ldz d s => fieldOfReg d ++ fieldOfReg s
  | .ldc d s => fieldOfReg d ++ fieldOfReg s
  | .lds d s => fieldOfReg d ++ fieldOfReg s
  | .ldo d s => fieldOfReg d ++ fieldOfReg s
  | .ldnf0is d s => fieldOfReg d ++ fieldOfReg s
  | .ldnf1is d s => fieldOfReg d ++ fieldOfReg s
  | .ldnf2is d s => fieldOfReg d ++ fieldOfReg s
  | .ldnf3is d s => fieldOfReg d ++ fieldOfReg s
  | .ldnzis d s => fieldOfReg d ++ fieldOfReg s
  | .ldncis d s => fieldOfReg d ++ fieldOfReg s
  | .ldnsis d s => fieldOfReg d ++ fieldOfReg s
  | .ldnois d s => fieldOfReg d ++ fieldOfReg s
  | .ldf0is d s => fieldOfReg d ++ fieldOfReg s
  | .ldf1is d s => fieldOfReg d ++ fieldOfReg s
  | .ldf2is d s => fieldOfReg d ++ fieldOfReg s
  | .ldf3is d s => fieldOfReg d ++ fieldOfReg s
  | .ldzis d s => fieldOfReg d ++ fieldOfReg s
  | .ldcis d s => fieldOfReg d ++ fieldOfReg s
  | .ldsis d s => fieldOfReg d ++ fieldOfReg s
  | .ldois d s => fieldOfReg d ++ fieldOfReg s
  | .ldxnf0is d s => fieldOfReg d ++ fieldOfReg s
  | .ldxnf1is d s => fieldOfReg d ++ fieldOfReg s
  | .ldxnf2is d s => fieldOfReg d ++ fieldOfReg s
  | .ldxnf3is d s => fieldOfReg d ++ fieldOfReg s
  | .ldxnzis d s => fieldOfReg d ++ fieldOfReg s
  | .ldxncis d s => fieldOfReg d ++ fieldOfReg s
  | .ldxnsis d s => fieldOfReg d ++ fieldOfReg s
  | .ldxnois d s => fieldOfReg d ++ fieldOfReg s
  | .ldxf0is d s => fieldOfReg d ++ fieldOfReg s
  | .ldxf1is d s => fieldOfReg d ++ fieldOfReg s
  | .ldxf2is d s => fieldOfReg d ++ fieldOfReg s
  | .ldxf3is d s => fieldOfReg d ++ fieldOfReg s
  | .ldxzis d s => fieldOfReg d ++ fieldOfReg s
  | .ldxcis d s => fieldOfReg d ++ fieldOfReg s
  | .ldxsis d s => fieldOfReg d ++ fieldOfReg s
  | .ldxois d s => fieldOfReg d ++ fieldOfReg s
  | .mvnf0 d s => fieldOfReg d ++ fieldOfReg s
  | .mvnf1 d s => fieldOfReg d ++ fieldOfReg s
  | .mvnf2 d s => fieldOfReg d ++ fieldOfReg s
  | .mvnf3 d s => fieldOfReg d ++ fieldOfReg s
  | .mvnz d s => fieldOfReg d ++ fieldOfReg s
  | .mvnc d s => fieldOfReg d ++ fieldOfReg s
  | .mvns d s => fieldOfReg d ++ fieldOfReg s
  | .mvno d s => fieldOfReg d ++ fieldOfReg s
  | .mvf0 d s => fieldOfReg d ++ fieldOfReg s
  | .mvf1 d s => fieldOfReg d ++ fieldOfReg s
  | .mvf2 d s => fieldOfReg d ++ fieldOfReg s
  | .mvf3 d s => fieldOfReg d ++ fieldOfReg s
  | .mvz d s => fieldOfReg d ++ fieldOfReg s
  | .mvc d s => fieldOfReg d ++ fieldOfReg s
  | .mvs d s => fieldOfReg d ++ fieldOfReg s
  | .mvo d s => fieldOfReg d ++ fieldOfReg s
  | .unassigned22 _ d s => fieldOfReg d ++ fieldOfReg s
  | .unassigned24 _ d s => fieldOfReg d ++ fieldOfReg s
  | .unassigned28 _ d s => fieldOfReg d ++ fieldOfReg s
  | .unassigned30 _ d s => fieldOfReg d ++ fieldOfReg s
  | .unassigned40 _ d s => fieldOfReg d ++ fieldOfReg s
  | .unassignedD0 _ d s => fieldOfReg d ++ fieldOfReg s
  | .unassignedE0 _ d s => fieldOfReg d ++ fieldOfReg s

/-- The instruction word, `DSTR`, `SRCR`, `OPCODE` from bit 15 down (R90). -/
def encode (i : Instr) : Word := i.fields ++ i.opcode

/-- The two bytes of an instruction, lowest address first: the opcode, then the register byte (R61, R104). -/
def encodeBytes (i : Instr) : List Byte := [i.opcode, i.fields]

/-- The decoder on a row of the opcode table: bit 0 of `w` is the least significant bit of the instruction word, so its low
byte lies at the lower address (R61). -/
def decodeTableWord (nbits w : Nat) : Option Instr :=
  let v : Word := BitVec.ofNat 16 (w % 2 ^ nbits)
  match decode [v.extractLsb' 0 8, v.extractLsb' 8 8] with
  | .ok (i, _) => some i
  | .error _ => none

end Sys2Proof
end

