-- ==== Sys2Proof/Machine/Fetch.lean ====
section
/-! DEFINITION. Fetching an instruction, and putting one where it will be fetched. -/

namespace Sys2Proof.Machine

/-- Reads the opcode byte and the register byte at `pc` and advances `pc` past them (R26, R65): the instruction, and the
state in which it executes. The bytes are read as data is, also outside RAM (D28, log 29), and never ahead of time (D19,
log 21). -/
def State.fetch (s : State) : Instr × State :=
  let op := s.readByte s.pc
  let ds := op.2.readByte (s.pc + 1)
  (decodeInstr op.1 ds.1, ds.2.putReg .pc (s.pc + 2))

/-- The CPU able to take the next turn: not halted, not stopped, its turn first (log 22). -/
def State.readyToFetch (s : State) : State :=
  { s with
    halted := false
    run := if s.run = .stopped then .running else s.run
    agenda :=
      match s.agenda with
      | .event e :: rest => .cpu :: .event e :: rest
      | a => a }

/-- The register the next fetch takes its address from: `ia` when the handler is about to be entered, else `pc` (R246). -/
def State.fetchReg (s : State) : Reg := if s.entryDue then .ia else .pc

/-- Two bytes at an address and the one above it both lie in RAM. -/
def fitsInRam (a : Word) : Bool := a.toNat + 1 ≤ Config.memMax.toNat

/-- The state with an instruction word stored where the next step fetches. Where the fetch would leave RAM, the register it
takes its address from is set to 0 first (log 22). -/
def State.placeWord (s : State) (v : Word) : State :=
  let t := s.readyToFetch
  let u := if fitsInRam (t.reg t.fetchReg) then t else t.putReg t.fetchReg 0
  let a := (u.reg t.fetchReg).toNat
  u.putMem ((u.mem.write a (lowByte v)).write (a + 1) (highByte v))

/-- `placeWord` of the instruction whose first `nbits` bits are those of `w` and whose other bits are 0 (log 22). -/
def State.placeBits (s : State) (nbits w : Nat) : State := s.placeWord (BitVec.ofNat 16 (w % 2 ^ nbits))

end Sys2Proof.Machine
end

