-- ==== Sys2Proof/Machine/Run.lean ====
section
/-! DEFINITION. A turn of the CPU: the interrupt test, the fetch, the instruction (R246); and the choice of the next turn
(log 13). -/

namespace Sys2Proof.Machine

/-- The CPU's step: the interrupt test, the fetch, the instruction (R246). -/
def cpuStep (s : State) : Out :=
  let p := s.testInterrupts.fetch
  exec p.1 p.2

/-- In single-step mode the CPU is stopped after one instruction (R48, R276). -/
def stopAfter : Out → Out
  | .next t => .next (t.putRun .stopped)
  | .fault r => .fault r
  | .refused r => .refused r

/-- A turn of the CPU. Halted or stopped, it does nothing with it (R48, R249, log 18). -/
def cpuTurn (s : State) : Out :=
  if s.halted then .next s
  else
    match s.run with
    | .stopped => .next s
    | .running => cpuStep s
    | .singleStep => stopAfter (cpuStep s)

/-- The first turn on the agenda takes place; on an empty agenda it is the CPU's turn (log 13). -/
def takeTurn (s : State) : Out :=
  match s.agenda with
  | [] => cpuTurn s
  | .cpu :: rest => cpuTurn (s.putAgenda rest)
  | .event e :: rest => applyEvent e (s.putAgenda rest)

end Sys2Proof.Machine
end

