-- ==== Sys2Proof/Machine/Step.lean ====
section
/-! DEFINITION. One step of the machine: the next turn on the agenda, an event or a turn of the CPU (R246, log 13). -/

namespace Sys2Proof.Machine

/-- One step. -/
def step (s : State) : Host.Outcome State Fault Refusal := takeTurn s

/-- `s` with the instruction `w` of `nbits` bits where the next step fetches (log 22). -/
def State.withFetchWord (s : State) (nbits w : Nat) : State := s.placeBits nbits w

end Sys2Proof.Machine
end

