-- ==== Sys2Proof/Machine/Boot.lean ====
section
/-! DEFINITION. Power-up with a configured memory image, the parameter MEM_INIT (R283, R288, D16). -/

namespace Sys2Proof.Machine

/-- RAM with bytes put at consecutive addresses from `a` on; those beyond `MEM_MAX` have no place (log 1). -/
def Memory.fill (m : Memory) (a : Nat) : List Byte → Memory
  | [] => m
  | b :: bs => if a ≤ Config.memMax.toNat then (m.fill (a + 1) bs).write a b else m.fill (a + 1) bs

/-- The machine right after power-up on a build, with the memory image of its FPGA configuration: a start address and the
bytes from there on, as in a `.bin` or `.mif` file (R114, R283). The other bytes of RAM are unspecified (D16): they are
those of `others`, whatever it is. All else is as after reset (R280, R285); execution starts at 0x0000 (R288).
`State.reset` is the case of no image and RAM that reads 0 (log 1). -/
def State.powerUp (build : Params) (image : Word × List Byte) (others : Memory) : State :=
  { State.reset with params := build, mem := others.fill image.1.toNat image.2 }

end Sys2Proof.Machine
end

