-- ==== Sys2Proof/Machine/AsmText.lean ====
section
/-! DEFINITION. The assembler's characters, names and tokens (R104, R105, R107 to R109). Source is bytes; a file is a list
of them. What R104 to R111 leave open here is in log 30 and log 32. -/

namespace Sys2Proof.Machine

/-- Bytes of a source file, of a name, of a path. -/
abbrev Text := List Byte

/-- The bytes of a name written in this model; every one is ASCII. -/
def ascii (s : String) : Text := s.toList.map fun c => BitVec.ofNat 8 c.toNat

/-- Why the assembler stops; it then writes no output (R114). Safe: nothing is assembled. -/
inductive AsmError where
  /-- A byte that R107 does not allow there. -/
  | badCharacter (b : Byte)
  /-- A malformed number, or one above 65535 (R111). -/
  | badNumber
  /-- A character or string constant that does not end, or an unknown escape (R108). -/
  | badConstant
  /-- A line of no form that R107 lists. -/
  | badLine
  /-- A malformed expression (R111). -/
  | badExpression
  /-- A register where an arithmetic expression is needed (R111). -/
  | registerInExpression
  /-- An arithmetic expression or the wrong kind of register where a register or CSR is needed (R104). -/
  | badOperand
  /-- A name defined twice in one file, also implicitly (R109). -/
  | definedTwice (id : Text)
  /-- A name with no definition, or in the first phase none yet (R109, R113). -/
  | undefinedName (id : Text)
  /-- An unqualified name with several definitions in the program (R109). -/
  | ambiguousName (id : Text)
  /-- A namespace that no `$use` of the file introduces (R109, R112). -/
  | unknownNamespace (id : Text)
  /-- A name that denotes a macro used as a value, or a value used as a macro. -/
  | wrongKind (id : Text)
  /-- A constant defined by itself (R112). -/
  | cyclicConstant
  /-- A cyclic macro definition (R106). -/
  | cyclicMacro
  /-- Another number of arguments than the instruction or macro has (R104, R106). -/
  | wrongArguments
  /-- `$macro` within a macro, `$end_macro` outside one, a macro without its end (R112). -/
  | macroNesting
  /-- `$use` not at the beginning of a file (R112). -/
  | useNotFirst
  /-- A file that does not exist (R112). -/
  | noFile (path : Text)
  /-- Division by 0, which C leaves undefined (R111, log 30). -/
  | divisionByZero
  /-- Code beyond `ADDR_MAX` (log 30). -/
  | pastEnd
  /-- Two pieces of code at one address (log 30). -/
  | overlap
  /-- The bound on the number of steps given to the model's assembler was reached. -/
  | outOfSteps
  deriving DecidableEq, Repr

/-- A decimal digit. -/
def isDigit (b : Byte) : Bool := 0x30 ≤ b && b ≤ 0x39

/-- An upper-case letter. -/
def isUpper (b : Byte) : Bool := 0x41 ≤ b && b ≤ 0x5a

/-- Letters are case insensitive (R104). -/
def lower (b : Byte) : Byte := if isUpper b then b + 0x20 else b

/-- A letter or underscore: what an identifier can start with (R109). -/
def isNameStart (b : Byte) : Bool := (0x61 ≤ lower b && lower b ≤ 0x7a) || b == 0x5f

/-- Letters, digits and underscores (R109). -/
def isNamePart (b : Byte) : Bool := isNameStart b || isDigit b

/-- Space and horizontal tab (R107). -/
def isSpace (b : Byte) : Bool := b == 0x20 || b == 0x09

/-- The value of a digit in the bases up to 16. -/
def digitValue (b : Byte) : Option Nat :=
  if isDigit b then some (b.toNat - 0x30)
  else if 0x61 ≤ lower b && lower b ≤ 0x66 then some ((lower b).toNat - 0x61 + 10)
  else none

/-- Digits of a base, groups separated by one underscore (R111); `afterDigit` says that the byte before was a digit. -/
def digits (base acc : Nat) (afterDigit : Bool) : Text → Option Nat
  | [] => if afterDigit then some acc else none
  | b :: rest =>
    if b = 0x5f then if afterDigit then digits base acc false rest else none
    else
      match digitValue b with
      | some v => if v < base then digits base (acc * base + v) true rest else none
      | none => none

/-- A decimal, hexadecimal (`0x`) or binary (`0b`) number (R111). -/
def numberOf (t : Text) : Except AsmError Word :=
  let v :=
    match t with
    | 0x30 :: b :: rest =>
      if lower b = 0x78 then digits 16 0 false rest
      else if lower b = 0x62 then digits 2 0 false rest
      else digits 10 0 false t
    | _ => digits 10 0 false t
  match v with
  | some n => if n < 2 ^ 16 then .ok (BitVec.ofNat 16 n) else .error .badNumber
  | none => .error .badNumber

/-- An escape sequence after its backslash (R108): the byte it stands for, and what follows. Its letter is in lower case. -/
def escape : Text → Except AsmError (Byte × Text)
  | 0x30 :: rest => .ok (0x00, rest)
  | 0x74 :: rest => .ok (0x09, rest)
  | 0x6e :: rest => .ok (0x0a, rest)
  | 0x72 :: rest => .ok (0x0d, rest)
  | 0x22 :: rest => .ok (0x22, rest)
  | 0x27 :: rest => .ok (0x27, rest)
  | 0x5c :: rest => .ok (0x5c, rest)
  | 0x78 :: h :: l :: rest =>
    match digitValue h, digitValue l with
    | some x, some y => .ok (BitVec.ofNat 8 (16 * x + y), rest)
    | _, _ => .error .badConstant
  | _ => .error .badConstant

/-- The bytes of a string or character constant up to the closing quote `q`, and what follows it (R107, R108). A string
constant holds bytes 32 to 255. A character constant holds printable ASCII, in which any white space is a single space and
an escape letter can be of either case (R104); a `#` in it begins a comment, so that the constant does not end. The first
number bounds the recursion. -/
def quoted (q : Byte) : Nat → Text → Except AsmError (Text × Text)
  | 0, _ => .error .badConstant
  | _ + 1, [] => .error .badConstant
  | n + 1, b :: rest =>
    if b = q then .ok ([], rest)
    else if q = 0x27 && b = 0x23 then .error .badConstant
    else if b = 0x5c then do
      let (v, r) ← escape (if q = 0x27 then (rest.take 1).map lower ++ rest.drop 1 else rest)
      let (vs, r) ← quoted q n r
      .ok (v :: vs, r)
    else if q = 0x27 && isSpace b then do
      let (vs, r) ← quoted q n (rest.dropWhile isSpace)
      .ok (0x20 :: vs, r)
    else if b.toNat < 32 || (q = 0x27 && 126 < b.toNat) then .error (.badCharacter b)
    else do
      let (vs, r) ← quoted q n rest
      .ok (b :: vs, r)

/-- The number a character constant stands for: the first character in the low byte, the second in the high byte, the empty
constant 0 (R108). -/
def charValue : Text → Except AsmError Word
  | [] => .ok 0
  | [a] => .ok (wordOf 0 a)
  | [a, b] => .ok (wordOf b a)
  | _ => .error .badConstant

/-- The `$` or `$$` a label or constant name can end in (R110). -/
inductive Mark where
  | none | one | two
  deriving DecidableEq, Repr

/-- Operators and delimiters (R104, R109 to R111). `spacedDot` is a dot after white space: at the front of a line it can
begin the first argument of a macro (R106, log 32). -/
inductive Punct where
  | comma | colon | dot | spacedDot | open | close | tilde | minus | star | slash | percent | plus | amp | caret | bar | shl | shr
  deriving DecidableEq, Repr

/-- The tokens of a line (R107 to R111). -/
inductive Token where
  | name (id : Text) (mark : Mark)
  | number (v : Word)
  | text (bytes : Text)
  | directive (id : Text)
  | punct (p : Punct)
  deriving DecidableEq, Repr

/-- The one-byte delimiters. -/
def punctOf (b : Byte) : Option Punct :=
  match b.toNat with
  | 0x2c => some .comma
  | 0x3a => some .colon
  | 0x2e => some .dot
  | 0x28 => some .open
  | 0x29 => some .close
  | 0x7e => some .tilde
  | 0x2d => some .minus
  | 0x2a => some .star
  | 0x2f => some .slash
  | 0x25 => some .percent
  | 0x2b => some .plus
  | 0x26 => some .amp
  | 0x5e => some .caret
  | 0x7c => some .bar
  | _ => none

/-- A name with the mark it ends in. -/
def nameToken (id : Text) : Text → Token × Text
  | 0x24 :: 0x24 :: rest => (.name id .two, rest)
  | 0x24 :: rest => (.name id .one, rest)
  | rest => (.name id .none, rest)

/-- The first byte of a comment that R107 does not allow. -/
def badComment (t : Text) : Option Byte := t.find? fun b => b.toNat < 32 && b != 0x09

/-- The tokens of one line without its newline (R107). The first number bounds the recursion. -/
def tokens : Nat → Text → Except AsmError (List Token)
  | 0, _ => .error .outOfSteps
  | _ + 1, [] => .ok []
  | n + 1, b :: rest =>
    if isSpace b then
      if rest.head? = some 0x2e then do
        let ts ← tokens n rest.tail
        .ok (.punct .spacedDot :: ts)
      else tokens n rest
    else if b = 0x23 then
      match badComment rest with
      | some c => .error (.badCharacter c)
      | none => .ok []
    else if isNameStart b then do
      let (t, r) := nameToken ((b :: rest.takeWhile isNamePart).map lower) (rest.dropWhile isNamePart)
      let ts ← tokens n r
      .ok (t :: ts)
    else if isDigit b then do
      let v ← numberOf (b :: rest.takeWhile isNamePart)
      let ts ← tokens n (rest.dropWhile isNamePart)
      .ok (.number v :: ts)
    else if b = 0x22 then do
      let (s, r) ← quoted 0x22 (rest.length + 1) rest
      let ts ← tokens n r
      .ok (.text s :: ts)
    else if b = 0x27 then do
      let (s, r) ← quoted 0x27 (rest.length + 1) rest
      let v ← charValue s
      let ts ← tokens n r
      .ok (.number v :: ts)
    else if b = 0x24 then do
      let ts ← tokens n (rest.dropWhile isNamePart)
      .ok (.directive ((rest.takeWhile isNamePart).map lower) :: ts)
    else if b = 0x3c && rest.head? = some 0x3c then do
      let ts ← tokens n rest.tail
      .ok (.punct .shl :: ts)
    else if b = 0x3e && rest.head? = some 0x3e then do
      let ts ← tokens n rest.tail
      .ok (.punct .shr :: ts)
    else
      match punctOf b with
      | some p => do
        let ts ← tokens n rest
        .ok (.punct p :: ts)
      | none => .error (.badCharacter b)

/-- The lines of a file, each without its newline. -/
def linesOf : Text → List Text
  | [] => []
  | b :: rest =>
    if b = 0x0a then [] :: linesOf rest
    else
      match linesOf rest with
      | [] => [[b]]
      | l :: ls => (b :: l) :: ls

/-- The unconditional mnemonics in the order of their opcodes (R97). -/
def unconditionalNames : List String :=
  ["ill", "add", "and", "csrr", "csrw", "dec1", "dec2", "exch", "inc1", "inc2", "ld", "ldb", "ldis", "ldisx", "mv",
    "neg", "not", "or", "shl", "shr", "shra", "sto", "stob", "ddsto", "sub", "cmpu", "xor", "cmps", "reti", "rev",
    "mulss", "mulsu", "mulus", "muluu"]

/-- The suffixes of the conditional mnemonics in the order of `COND` (R99). -/
def conditionNames : List String :=
  ["nf0", "nf1", "nf2", "nf3", "nz", "nc", "ns", "no", "f0", "f1", "f2", "f3", "z", "c", "s", "o"]

/-- What stands before and after the suffix in each conditional family, in the order of `OP` (R98, R100). -/
def familyNames : List (String × String) := [("exch", ""), ("ld", ""), ("ld", "is"), ("ldx", "is"), ("mv", "")]

/-- Every mnemonic with its opcode byte (R97, R100, R105). -/
def mnemonics : List (Text × Byte) :=
  (unconditionalNames.zipIdx.map fun p => (ascii p.1, BitVec.ofNat 8 p.2)) ++
  (familyNames.zipIdx.map fun f =>
    conditionNames.zipIdx.map fun c =>
      (ascii f.1.1 ++ ascii c.1 ++ ascii f.1.2, BitVec.ofNat 8 (128 + 16 * f.2 + c.2))).flatten

/-- The opcode byte of a mnemonic. -/
def opcodeNamed (t : Text) : Option Byte := (mnemonics.find? fun p => p.1 = t).map Prod.snd

/-- The mnemonic of an opcode byte, if it has one (R105). -/
def mnemonicOf (op : Byte) : Option Text := (mnemonics.find? fun p => p.2 = op).map Prod.fst

/-- The decimal digits of a number below 100; larger ones are not needed for register names. -/
def twoDigits (n : Nat) : Text :=
  if n < 10 then [BitVec.ofNat 8 (0x30 + n)] else [BitVec.ofNat 8 (0x30 + n / 10), BitVec.ofNat 8 (0x30 + n % 10)]

/-- The names of registers, with their other names (R21, R104), each with its number. -/
def regNames : List (Text × BitVec 4) :=
  ((List.range 16).map fun n => (ascii "r" ++ twoDigits n, BitVec.ofNat 4 n)) ++
  [(ascii "sp", 11), (ascii "ca", 12), (ascii "ia", 13), (ascii "f", 14), (ascii "pc", 15)]

/-- The names of the CSRs (R37, R104). -/
def csrNames : List (Text × BitVec 4) :=
  (List.range 16).map fun n => (ascii "csr" ++ twoDigits n, BitVec.ofNat 4 n)

/-- The number of a named register. -/
def regNamed (t : Text) : Option (BitVec 4) := (regNames.find? fun p => p.1 = t).map Prod.snd

/-- The number of a named CSR. -/
def csrNamed (t : Text) : Option (BitVec 4) := (csrNames.find? fun p => p.1 = t).map Prod.snd

/-- Names defined implicitly in each file: mnemonics, registers, CSRs, `__addr` (R104, R109, R111). -/
def reservedName (t : Text) : Bool :=
  (opcodeNamed t).isSome || (regNamed t).isSome || (csrNamed t).isSome || t == ascii "__addr"

end Sys2Proof.Machine
end

