-- ==== Sys2Proof/Machine/AsmSyntax.lean ====
section
/-! DEFINITION. The assembler's expressions and lines (R104, R106, R109 to R112). What the rules leave
open is in log 30 and log 32. -/

namespace Sys2Proof.Machine

/-- How a name refers to its definition: unqualified, `.id`, `namespace.id` (R109). -/
inductive Qualifier where
  | bare | own | space (id : Text)
  deriving DecidableEq, Repr

/-- A name as it stands in a source line (R109, R110). -/
structure SymName where
  qual : Qualifier
  id : Text
  mark : Mark
  deriving DecidableEq, Repr

/-- The unary operators (R111); parentheses are one, so that a register in them is no register expression. -/
inductive UnOp where
  | not | neg | paren
  deriving DecidableEq, Repr

/-- The binary operators (R111). -/
inductive BinOp where
  | mul | div | mod | add | sub | shl | shr | and | xor | or
  deriving DecidableEq, Repr

/-- An expression as written (R111). -/
inductive Expr where
  | num (v : Word)
  | name (n : SymName)
  | un (o : UnOp) (e : Expr)
  | bin (o : BinOp) (a b : Expr)
  deriving DecidableEq, Repr

/-- An argument: an expression or a string constant (R112). -/
inductive Arg where
  | expr (e : Expr)
  | text (b : Text)
  deriving DecidableEq, Repr

/-- What a line holds after its labels (R107, R112): an instruction or macro reference is a `command`. -/
inductive Body where
  | empty
  | command (n : SymName) (args : List Arg)
  | addr (e : Expr)
  | const (id : Text) (mark : Mark) (e : Expr)
  | dataB (args : List Arg)
  | dataW (args : List Expr)
  | mac (id : Text) (params : List Text)
  | endMac
  | use (space path : Text)
  deriving DecidableEq, Repr

/-- A source line: its number in the file, its text, its labels, its body (R110, R114). -/
structure Line where
  number : Nat
  text : Text
  labels : List (Text × Mark)
  body : Body
  deriving DecidableEq, Repr

/-- The priority of a binary operator, 0 the lowest, with the operator (R111). -/
def binaryOf : Punct → Option (Nat × BinOp)
  | .bar => some (0, .or)
  | .caret => some (1, .xor)
  | .amp => some (2, .and)
  | .shl => some (3, .shl)
  | .shr => some (3, .shr)
  | .plus => some (4, .add)
  | .minus => some (4, .sub)
  | .star => some (5, .mul)
  | .slash => some (5, .div)
  | .percent => some (5, .mod)
  | .comma => none
  | .colon => none
  | .dot => none
  | .spacedDot => none
  | .open => none
  | .close => none
  | .tilde => none

/-- What the parser reads next: operators of one priority and above, more operands of one priority after a first, or a
unary expression. -/
inductive Goal where
  | level (k : Nat)
  | more (k : Nat) (left : Expr)
  | unary
  deriving DecidableEq, Repr

/-- Reads an expression from the front of the tokens: left associative binary operators of six priorities above the unary
ones (R111). The first number bounds the recursion. -/
def parseExpr : Nat → Goal → List Token → Except AsmError (Expr × List Token)
  | 0, _, _ => .error .outOfSteps
  | n + 1, .level k, ts =>
    if 6 ≤ k then parseExpr n .unary ts
    else do
      let (e, r) ← parseExpr n (.level (k + 1)) ts
      parseExpr n (.more k e) r
  | n + 1, .more k left, .punct p :: ts =>
    match binaryOf p with
    | some (j, o) =>
      if j = k then do
        let (e, r) ← parseExpr n (.level (k + 1)) ts
        parseExpr n (.more k (.bin o left e)) r
      else .ok (left, .punct p :: ts)
    | none => .ok (left, .punct p :: ts)
  | _ + 1, .more _ left, ts => .ok (left, ts)
  | n + 1, .unary, .punct .tilde :: ts => do
    let (e, r) ← parseExpr n .unary ts
    .ok (.un .not e, r)
  | n + 1, .unary, .punct .minus :: ts => do
    let (e, r) ← parseExpr n .unary ts
    .ok (.un .neg e, r)
  | n + 1, .unary, .punct .open :: ts => do
    let (e, r) ← parseExpr n (.level 0) ts
    match r with
    | .punct .close :: r => .ok (.un .paren e, r)
    | _ => .error .badExpression
  | _ + 1, .unary, .punct .dot :: .name id m :: ts => .ok (.name { qual := .own, id := id, mark := m }, ts)
  | _ + 1, .unary, .name s .none :: .punct .dot :: .name id m :: ts =>
    .ok (.name { qual := .space s, id := id, mark := m }, ts)
  | _ + 1, .unary, .name id m :: ts => .ok (.name { qual := .bare, id := id, mark := m }, ts)
  | _ + 1, .unary, .number v :: ts => .ok (.num v, ts)
  | _ + 1, .unary, _ => .error .badExpression

/-- One expression and what follows it. -/
def expression (ts : List Token) : Except AsmError (Expr × List Token) :=
  parseExpr (8 * (ts.length + 2)) (.level 0) ts

/-- Arguments separated by commas, up to the end of the line (R104, R106, R112). The first number bounds the recursion. -/
def arguments : Nat → List Token → Except AsmError (List Arg)
  | 0, _ => .error .outOfSteps
  | n + 1, ts => do
    let (a, r) ←
      match ts with
      | .text b :: r => Except.ok (Arg.text b, r)
      | _ => do
        let (e, r) ← expression ts
        Except.ok (Arg.expr e, r)
    match r with
    | [] => .ok [a]
    | .punct .comma :: r => do
      let as ← arguments n r
      .ok (a :: as)
    | _ => .error .badLine

/-- Within arguments white space before a dot means nothing (R107). -/
def Token.unspaced : Token → Token
  | .punct .spacedDot => .punct .dot
  | t => t

/-- The arguments of a line, none when nothing follows: also for `$data_b` and `$data_w`, which then lay out nothing
(log 32). -/
def argumentList (ts : List Token) : Except AsmError (List Arg) :=
  if ts.isEmpty then .ok [] else arguments (ts.length + 1) (ts.map Token.unspaced)

/-- An argument that must be an expression. -/
def Arg.toExpr : Arg → Except AsmError Expr
  | .expr e => .ok e
  | .text _ => .error .badExpression

/-- The names of a macro's arguments: each one an unmarked identifier (R112). -/
def Arg.toParam : Arg → Except AsmError Text
  | .expr (.name n) => if n.qual = .bare ∧ n.mark = .none then .ok n.id else .error .badLine
  | .expr (.num _) => .error .badLine
  | .expr (.un _ _) => .error .badLine
  | .expr (.bin _ _ _) => .error .badLine
  | .text _ => .error .badLine

/-- A directive with its arguments (R112). -/
def directiveBody (id : Text) (ts : List Token) : Except AsmError Body := do
  let as ← argumentList ts
  if id = ascii "addr" then
    match as with
    | [a] => do
      let e ← a.toExpr
      .ok (.addr e)
    | _ => .error .wrongArguments
  else if id = ascii "const" then
    match as with
    | [.expr (.name n), a] => do
      let e ← a.toExpr
      if n.qual = .bare then .ok (.const n.id n.mark e) else .error .badLine
    | _ => .error .wrongArguments
  else if id = ascii "data_b" then .ok (.dataB as)
  else if id = ascii "data_w" then do
    let es ← as.mapM Arg.toExpr
    .ok (.dataW es)
  else if id = ascii "macro" then do
    let ns ← as.mapM Arg.toParam
    match ns with
    | n :: ps => .ok (.mac n ps)
    | [] => .error .wrongArguments
  else if id = ascii "end_macro" then if as.isEmpty then .ok .endMac else .error .wrongArguments
  else .error .badLine

/-- An instruction or macro reference. -/
def commandBody (qual : Qualifier) (id : Text) (mark : Mark) (ts : List Token) : Except AsmError Body := do
  let as ← argumentList ts
  .ok (.command { qual := qual, id := id, mark := mark } as)

/-- What follows the labels of a line, in a file that introduces the namespaces `spaces`. After a name and white space a
dot joins the two names if the first is a namespace of the file, and begins the first argument if it is not (R106, R107,
R109, log 32). -/
def bodyOf (spaces : List Text) : List Token → Except AsmError Body
  | [] => .ok .empty
  | .directive id :: ts => directiveBody id ts
  | .punct .dot :: .name id m :: ts => commandBody .own id m ts
  | .punct .spacedDot :: .name id m :: ts => commandBody .own id m ts
  | .name s .none :: .punct .dot :: .name id m :: ts => commandBody (.space s) id m ts
  | .name s .none :: .punct .spacedDot :: .name id m :: ts =>
    if s ∈ spaces then commandBody (.space s) id m ts
    else commandBody .bare s .none (.punct .dot :: .name id m :: ts)
  | .name id m :: ts => commandBody .bare id m ts
  | _ => .error .badLine

/-- The `$` or `$$` at the front of a text, and what follows. -/
def markOf : Text → Mark × Text
  | 0x24 :: 0x24 :: rest => (.two, rest)
  | 0x24 :: rest => (.one, rest)
  | rest => (.none, rest)

/-- The labels at the front of a line (R110), and the rest. The first number bounds the recursion. -/
def labelsOf : Nat → Text → List (Text × Mark) × Text
  | 0, t => ([], t)
  | n + 1, t =>
    let u := t.dropWhile isSpace
    if u.head?.any isNameStart then
      let (m, v) := markOf (u.dropWhile isNamePart)
      match v.dropWhile isSpace with
      | 0x3a :: rest =>
        let (ls, w) := labelsOf n rest
        (((u.takeWhile isNamePart).map lower, m) :: ls, w)
      | _ => ([], t)
    else ([], t)

/-- A text with each run of white space made a single space (R107). -/
def singleSpaced : Text → Text
  | [] => []
  | b :: rest =>
    if isSpace b then if rest.head?.any isSpace then singleSpaced rest else 0x20 :: singleSpaced rest
    else b :: singleSpaced rest

/-- A text without the white space at its ends. -/
def trimmed (t : Text) : Text := ((t.dropWhile isSpace).reverse.dropWhile isSpace).reverse

/-- A byte that is neither printable ASCII nor a tab (R107). -/
def isForeign (b : Byte) : Bool := b != 0x09 && (b.toNat < 32 || 126 < b.toNat)

/-- A `$use` line, if it is one: the namespace and the path, which is not written in quotes and ends before a comment
(R107, R112). -/
def useLine (t : Text) : Except AsmError (Option (Text × Text)) :=
  let u := t.dropWhile isSpace
  if (u.take 4).map lower = ascii "$use" && (u.drop 4).head?.any isSpace then
    let code := u.takeWhile fun b => b != 0x23
    match code.find? isForeign, badComment (u.drop (code.length + 1)) with
    | some b, _ => .error (.badCharacter b)
    | none, some b => .error (.badCharacter b)
    | none, none =>
      let args := (code.drop 4).dropWhile isSpace
      let id := (args.takeWhile isNamePart).map lower
      match (args.dropWhile isNamePart).dropWhile isSpace with
      | 0x2c :: rest =>
        let path := singleSpaced (trimmed rest)
        if id.head?.any isNameStart && !path.isEmpty then .ok (some (id, path)) else .error .badLine
      | _ => .error .badLine
  else .ok none

/-- A source line, in a file that introduces the namespaces `spaces`. -/
def parseLine (spaces : List Text) (number : Nat) (t : Text) : Except AsmError Line := do
  let (ls, r) := labelsOf (t.length + 1) t
  match ← useLine r with
  | some (id, path) => .ok { number := number, text := t, labels := ls, body := .use id path }
  | none =>
    let ts ← tokens (r.length + 1) r
    let b ← bodyOf spaces ts
    .ok { number := number, text := t, labels := ls, body := b }

/-- The namespace a line introduces, if it is a `$use` (R112). -/
def spaceOf (t : Text) : Option Text :=
  match useLine (labelsOf (t.length + 1) t).2 with
  | .ok (some (id, _)) => some id
  | .ok none => none
  | .error _ => none

/-- The line holds nothing. -/
def Line.isEmpty (l : Line) : Bool := l.labels.isEmpty && l.body == .empty

/-- The line is a `$use`. -/
def Line.isUse (l : Line) : Bool :=
  match l.body with
  | .use _ _ => true
  | _ => false

/-- `$use` stands only at the beginning of a file, after empty lines and others of its kind (R112). -/
def usesFirst (ls : List Line) : Bool := !((ls.dropWhile fun l => l.isEmpty || l.isUse).any Line.isUse)

/-- A whole file. -/
def parseFile (t : Text) : Except AsmError (List Line) := do
  let spaces := (linesOf t).filterMap spaceOf
  let ls ← ((linesOf t).zipIdx 1).mapM fun p => parseLine spaces p.2 p.1
  if usesFirst ls then .ok ls else .error .useNotFirst

end Sys2Proof.Machine
end

