-- ==== Sys2Proof/Machine/Assembler.lean ====
section
/-! DEFINITION. The assembler's two phases and its output (R104, R106, R109 to R114). The first phase reads the lines in
order, defines names, expands macros and lays code out at addresses; the second evaluates what the code refers to. What the
rules leave open is in log 30 (the text and the two phases), log 32 (names, macros, directives) and log 33 (the output). -/

namespace Sys2Proof.Machine

/-- An expression whose names are bound to files, markers numbered and arguments put in: `none` looks for a name in the
whole program (R109). -/
inductive Term where
  | num (v : Word)
  | ref (file : Option Nat) (id : Text)
  | un (o : UnOp) (e : Term)
  | bin (o : BinOp) (a b : Term)
  deriving DecidableEq, Repr

/-- An argument of an instruction or macro, evaluated as far as the first phase can (R106, R111). -/
inductive Operand where
  | reg (n : BitVec 4)
  | csr (n : BitVec 4)
  | value (t : Term)
  | text (b : Text)
  deriving DecidableEq, Repr

/-- A macro: its arguments' names and the lines up to `$end_macro` (R112). -/
structure MacroDef where
  params : List Text
  body : List Line
  deriving DecidableEq, Repr

/-- What a name denotes. -/
inductive Denotation where
  | label (a : Word)
  | const (t : Term)
  | mac (m : MacroDef)
  deriving DecidableEq, Repr

/-- A definition, with the file it stands in (R109). -/
structure Def where
  file : Nat
  id : Text
  means : Denotation
  deriving DecidableEq, Repr

/-- What `$$` looks back over: the rest of a file, or of one macro expansion (R110). -/
inductive Frame where
  | file (n : Nat)
  | expansion (n : Nat)
  deriving DecidableEq, Repr

/-- A line to be assembled: the file it counts as part of, the file it stands in (another one for the lines of a macro
defined elsewhere), its frame, the number that replaces `$`, the macros being expanded around it, the macro arguments in
force. -/
structure Job where
  file : Nat
  origin : Nat
  frame : Frame
  own : Nat
  chain : List (Nat × Text)
  bound : List (Text × Operand)
  line : Line
  deriving DecidableEq, Repr

/-- What a line puts into memory: the instruction's bytes, or expressions for the second phase (R112). -/
inductive Item where
  | byte (b : Byte)
  | lowOf (t : Term)
  | wordOf (t : Term)
  deriving DecidableEq, Repr

/-- The code of one line: the file and line where it stands, its address, an instruction with canonical names if it is one
(R105, R114). -/
structure Piece where
  file : Nat
  number : Nat
  addr : Word
  canonical : Option (Text × BitVec 4 × BitVec 4)
  items : List Item
  deriving DecidableEq, Repr

/-- What the first phase has met, for the `.out` file: a source line, the code of a line (R114). -/
inductive Entry where
  | source (text : Text)
  | code (p : Piece)
  deriving DecidableEq, Repr

/-- A macro whose lines are being read: its file, name and arguments, and its lines so far, the last first. -/
structure Reading where
  file : Nat
  id : Text
  params : List Text
  lines : List Line
  deriving DecidableEq, Repr

/-- The assembler in its first phase: the current address (R113), the names, the namespaces of each file (R112), the files
read so far, the macro expansions counted for `$` and the last one in each frame for `$$` (R110), the lines and code met
with the last first, the names used in the first phase, the lines still to be assembled. -/
structure Asm where
  addr : Word
  defs : List Def
  spaces : List (Nat × Text × Nat)
  files : List Text
  count : Nat
  last : List (Frame × Nat)
  trace : List Entry
  used : List (Option Nat × Text)
  reading : Option Reading
  jobs : List Job
  deriving DecidableEq, Repr

/-- The decimal digits of a number, for `$` (R110). The first number bounds the recursion. -/
def decimal : Nat → Nat → Text
  | 0, _ => []
  | n + 1, v => (if v < 10 then [] else decimal n (v / 10)) ++ [BitVec.ofNat 8 (0x30 + v % 10)]

/-- The number that replaces `$$` in a frame: 0 before any expansion in it (R110). -/
def Asm.previous (s : Asm) (f : Frame) : Nat :=
  match s.last.find? fun p => p.1 = f with
  | some p => p.2
  | none => 0

/-- A name with its marker replaced (R110). -/
def Asm.numbered (s : Asm) (j : Job) (id : Text) : Mark → Text
  | .none => id
  | .one => id ++ decimal 20 j.own
  | .two => id ++ decimal 20 (s.previous j.frame)

/-- The file a qualifier selects in a file: `none` is the whole program (R109). -/
def Asm.scope (s : Asm) (file : Nat) : Qualifier → Except AsmError (Option Nat)
  | .bare => .ok none
  | .own => .ok (some file)
  | .space id =>
    match s.spaces.find? fun p => p.1 = file ∧ p.2.1 = id with
    | some p => .ok (some p.2.2)
    | none => .error (.unknownNamespace id)

/-- A name that every file defines implicitly, so that each qualifier finds it: a register, a CSR, `__addr` (R104, R109,
R111). -/
def Asm.implicit (s : Asm) (id : Text) : Option Operand :=
  match regNamed id, csrNamed id with
  | some r, _ => some (.reg r)
  | none, some c => some (.csr c)
  | none, none => if id = ascii "__addr" then some (.value (.num s.addr)) else none

/-- The argument in force for a name of a macro's parameters. Unqualified, the name is the parameter's whatever else it
names, a register or a definition of the program (R106, log 32). -/
def Job.argument (j : Job) (n : SymName) : Option Operand :=
  if n.qual = .bare ∧ n.mark = .none then (j.bound.find? fun p => p.1 = n.id).map Prod.snd else none

/-- A name in an expression: a macro argument, an implicit definition, or a reference (R106, R109, R111). -/
def Asm.resolveName (s : Asm) (j : Job) (n : SymName) : Except AsmError Operand :=
  match j.argument n with
  | some o => .ok o
  | none => do
    let f ← s.scope j.file n.qual
    match (if n.mark = .none then s.implicit n.id else none) with
    | some o => .ok o
    | none => .ok (.value (.ref f (s.numbered j n.id n.mark)))

/-- An arithmetic expression in its context; a register is an error in it (R111). -/
def Asm.resolve (s : Asm) (j : Job) : Expr → Except AsmError Term
  | .num v => .ok (.num v)
  | .name n => do
    let o ← s.resolveName j n
    match o with
    | .value t => .ok t
    | .reg _ => .error .registerInExpression
    | .csr _ => .error .registerInExpression
    | .text _ => .error .badExpression
  | .un o e => do
    let t ← s.resolve j e
    .ok (.un o t)
  | .bin o a b => do
    let t ← s.resolve j a
    let u ← s.resolve j b
    .ok (.bin o t u)

/-- An argument in its context: a register name alone is a register (R111). A string constant is an argument too, for a
macro whose lines use it in `$data_b`; elsewhere its use is an error (log 32). -/
def Asm.operand (s : Asm) (j : Job) : Arg → Except AsmError Operand
  | .text b => .ok (.text b)
  | .expr (.name n) => s.resolveName j n
  | .expr (.num v) => .ok (.value (.num v))
  | .expr (.un o e) => do
    let t ← s.resolve j (.un o e)
    .ok (.value t)
  | .expr (.bin o a b) => do
    let t ← s.resolve j (.bin o a b)
    .ok (.value t)

/-- The definition a reference selects (R109). -/
def lookup (defs : List Def) (file : Option Nat) (id : Text) : Except AsmError Def :=
  match defs.filter fun d => d.id = id && (file.isNone || file = some d.file) with
  | [] => .error (.undefinedName id)
  | [d] => .ok d
  | _ => .error (.ambiguousName id)

/-- The references in an expression. -/
def Term.refs : Term → List (Option Nat × Text)
  | .num _ => []
  | .ref f id => [(f, id)]
  | .un _ e => e.refs
  | .bin _ a b => a.refs ++ b.refs

/-- The references in an argument. -/
def Operand.refs : Operand → List (Option Nat × Text)
  | .value t => t.refs
  | .reg _ => []
  | .csr _ => []
  | .text _ => []

/-- Names used in the first phase, to be looked up again once the whole program is known (R109). -/
def Asm.use (s : Asm) (rs : List (Option Nat × Text)) : Asm := { s with used := rs ++ s.used }

/-- A unary operator on 16-bit unsigned numbers (R111). -/
def UnOp.apply : UnOp → Word → Word
  | .not, v => ~~~ v
  | .neg, v => 0 - v
  | .paren, v => v

/-- A binary operator on 16-bit unsigned numbers, as in C (R111); a shift by 16 or more is free (log 30). -/
def BinOp.apply (o : BinOp) (a b : Word) : Except AsmError Word :=
  match o with
  | .mul => .ok (a * b)
  | .div => if b = 0 then .error .divisionByZero else .ok (a / b)
  | .mod => if b = 0 then .error .divisionByZero else .ok (a % b)
  | .add => .ok (a + b)
  | .sub => .ok (a - b)
  | .shl => .ok (if b.toNat < 16 then a <<< b.toNat else Config.asmWideShift a b)
  | .shr => .ok (if b.toNat < 16 then a >>> b.toNat else Config.asmWideShift a b)
  | .and => .ok (a &&& b)
  | .xor => .ok (a ^^^ b)
  | .or => .ok (a ||| b)

/-- The value of an expression, given the values of references. -/
def Term.eval (look : Option Nat → Text → Except AsmError Word) : Term → Except AsmError Word
  | .num v => .ok v
  | .ref f id => look f id
  | .un o e => do
    let v ← e.eval look
    .ok (o.apply v)
  | .bin o a b => do
    let v ← a.eval look
    let w ← b.eval look
    o.apply v w

/-- The value of a reference: a label's address or a constant's value (R111). The first number bounds the chain of
constants. -/
def valueOf : Nat → List Def → Option Nat → Text → Except AsmError Word
  | 0, _, _, _ => .error .cyclicConstant
  | n + 1, defs, file, id => do
    let d ← lookup defs file id
    match d.means with
    | .label a => .ok a
    | .const t => t.eval (valueOf n defs)
    | .mac _ => .error (.wrongKind id)

/-- The value of an expression under the definitions made so far. -/
def evaluate (defs : List Def) (t : Term) : Except AsmError Word := t.eval (valueOf (defs.length + 1) defs)

/-- A new definition (R109). -/
def Asm.define (s : Asm) (file : Nat) (id : Text) (d : Denotation) : Except AsmError Asm :=
  if reservedName id || s.defs.any fun e => e.file = file && e.id = id then .error (.definedTwice id)
  else .ok { s with defs := { file := file, id := id, means := d } :: s.defs }

/-- The labels of a line denote the current address (R110). -/
def Asm.defineLabels (s : Asm) (j : Job) : List (Text × Mark) → Except AsmError Asm
  | [] => .ok s
  | l :: ls => do
    let s ← s.define j.file (s.numbered j l.1 l.2) (.label s.addr)
    s.defineLabels j ls

/-- How many bytes an item takes. -/
def Item.size : Item → Nat
  | .byte _ => 1
  | .lowOf _ => 1
  | .wordOf _ => 2

/-- Code at the current address, which moves past it (R104, R112, R113). The spec does not say what follows code that ends
exactly at `ADDR_MAX`: the current address is then 0x0000, and later code is laid out from there (DESIGN CHOICE, log 30). -/
def Asm.emit (s : Asm) (j : Job) (canonical : Option (Text × BitVec 4 × BitVec 4)) (items : List Item) :
    Except AsmError Asm :=
  let n := (items.map Item.size).sum
  if Config.addrMax.toNat + 1 < s.addr.toNat + n then .error .pastEnd
  else
    .ok { s with
      addr := s.addr + BitVec.ofNat 16 n
      trace :=
        .code { file := j.origin, number := j.line.number, addr := s.addr, canonical := canonical, items := items } ::
          s.trace }

/-- The items of a `$data_b` argument (R112); a macro argument can be the string constant (log 32). -/
def Asm.dataItems (s : Asm) (j : Job) (a : Arg) : Except AsmError (List Item) := do
  let o ← s.operand j a
  match o with
  | .text b => .ok (b.map Item.byte)
  | .value t => .ok [.lowOf t]
  | .reg _ => .error .registerInExpression
  | .csr _ => .error .registerInExpression

/-- The register fields of an instruction: a CSR where `csrr` and `csrw` take one, else a register (R91, R104). -/
def fieldOperand (isCsr : Bool) : Operand → Except AsmError (BitVec 4)
  | .reg n => if isCsr then .error .badOperand else .ok n
  | .csr n => if isCsr then .ok n else .error .badOperand
  | .value _ => .error .badOperand
  | .text _ => .error .badOperand

/-- An instruction line: the opcode, then `DSTR` and `SRCR` (R104). -/
def Asm.instruction (s : Asm) (j : Job) (op : Byte) (args : List Arg) : Except AsmError Asm :=
  match args with
  | [a, b] => do
    let x ← s.operand j a
    let y ← s.operand j b
    let d ← fieldOperand (op == 0x04) x
    let r ← fieldOperand (op == 0x03) y
    s.emit j ((mnemonicOf op).map fun m => (m, d, r)) [.byte op, .byte (d ++ r)]
  | _ => .error .wrongArguments

/-- The last expansion in a frame. -/
def Asm.setPrevious (s : Asm) (f : Frame) (n : Nat) : Asm :=
  { s with last := (f, n) :: s.last.filter fun p => p.1 != f }

/-- A macro reference: its lines, with the arguments bound, take the reference's place (R106, R110, R112). They count as
part of the file of the reference; the namespaces they use are that file's (log 32). More or fewer arguments than the
definition has are the error `wrongArguments`: DESIGN CHOICE, the rules do not say (log 32). -/
def Asm.expand (s : Asm) (j : Job) (n : SymName) (args : List Arg) : Except AsmError Asm := do
  let f ← s.scope j.file n.qual
  let id := s.numbered j n.id n.mark
  let d ← lookup s.defs f id
  match d.means with
  | .label _ => .error (.wrongKind n.id)
  | .const _ => .error (.wrongKind n.id)
  | .mac m =>
    if j.chain.any fun p => p.1 = d.file && p.2 = d.id then .error .cyclicMacro
    else if m.params.length ≠ args.length then .error .wrongArguments
    else do
      let os ← args.mapM (s.operand j)
      let c := s.count + 1
      let new := m.body.map fun l =>
        ({ file := j.file, origin := d.file, frame := .expansion c, own := c, chain := (d.file, d.id) :: j.chain,
           bound := m.params.zip os, line := l } : Job)
      .ok { (s.setPrevious j.frame c).use ((f, id) :: (os.map Operand.refs).flatten) with
            count := c, jobs := new ++ s.jobs }

/-- The directory part of a path, with its last slash. -/
def directory (p : Text) : Text := (p.reverse.dropWhile fun b => b != 0x2f).reverse

/-- Paths that differ in the case of letters are the same (R104). -/
def samePath (p q : Text) : Bool := p.map lower == q.map lower

/-- `$use` (R112): the file is read unless it has been, and the namespace names it. -/
def Asm.include (s : Asm) (fs : List (Text × Text)) (j : Job) (space path : Text) : Except AsmError Asm :=
  let full := if path.head? = some 0x2f then path else directory (s.files.getD j.file []) ++ path
  if s.spaces.any fun p => p.1 = j.file && p.2.1 = space then .error (.definedTwice space)
  else
    match s.files.findIdx? (samePath full) with
    | some i => .ok { s with spaces := (j.file, space, i) :: s.spaces }
    | none =>
      match fs.find? fun p => samePath full p.1 with
      | none => .error (.noFile full)
      | some p => do
        let ls ← parseFile p.2
        let i := s.files.length
        let new := ls.map fun l =>
          ({ file := i, origin := i, frame := .file i, own := 0, chain := [], bound := [], line := l } : Job)
        .ok { s with files := s.files ++ [full], spaces := (j.file, space, i) :: s.spaces, jobs := new ++ s.jobs }

/-- A line, its labels defined. The expression of `$const` is arithmetic, as are those of `$addr`, `$data_b` and `$data_w`:
R111 allows register name expressions to instructions and macros and is silent on directives, where the model makes one the
error `registerInExpression` (DESIGN CHOICE, log 32). -/
def Asm.body (s : Asm) (fs : List (Text × Text)) (j : Job) : Body → Except AsmError Asm
  | .empty => .ok s
  | .command n args => do
    let _ ← s.scope j.file n.qual
    match (if n.mark = .none then opcodeNamed n.id else none) with
    | some op => s.instruction j op args
    | none => s.expand j n args
  | .addr e => do
    let t ← s.resolve j e
    let v ← evaluate s.defs t
    .ok { s.use t.refs with addr := v }
  | .const id m e => do
    let t ← s.resolve j e
    s.define j.file (s.numbered j id m) (.const t)
  | .dataB args => do
    let is ← args.mapM (s.dataItems j)
    s.emit j none is.flatten
  | .dataW es => do
    let ts ← es.mapM (s.resolve j)
    s.emit j none (ts.map Item.wordOf)
  | .mac id params =>
    if j.chain.isEmpty then .ok { s with reading := some { file := j.file, id := id, params := params, lines := [] } }
    else .error .macroNesting
  | .endMac => .error .macroNesting
  | .use space path => s.include fs j space path

/-- The next line while a macro's lines are being read (R112). A label before `$end_macro` is no part of the macro: it
denotes the current address, as one before `$macro` does (R110, log 32). -/
def Asm.readLine (s : Asm) (r : Reading) (j : Job) : Except AsmError Asm :=
  let more : Asm := { s with reading := some { r with lines := j.line :: r.lines } }
  match j.line.body with
  | .endMac => do
    let s ← ({ s with reading := none }).defineLabels j j.line.labels
    s.define r.file r.id (.mac { params := r.params, body := r.lines.reverse })
  | .mac _ _ => .error .macroNesting
  | .use _ _ => .error .macroNesting
  | .empty => .ok more
  | .command _ _ => .ok more
  | .addr _ => .ok more
  | .const _ _ _ => .ok more
  | .dataB _ => .ok more
  | .dataW _ => .ok more

/-- The next line to be assembled is taken up; a line of a file is source text of the `.out` file (R114). -/
def Asm.take (s : Asm) (j : Job) (js : List Job) : Asm :=
  { s with jobs := js, trace := if j.chain.isEmpty then .source j.line.text :: s.trace else s.trace }

/-- The first phase, in fewer lines than the number given (R113). A line's labels are defined before its body takes effect,
so that a label on an `$addr` line, and `__addr` in it, denote the address before the directive sets it (DESIGN CHOICE,
log 32). -/
def Asm.run (fs : List (Text × Text)) : Nat → Asm → Except AsmError Asm
  | 0, _ => .error .outOfSteps
  | n + 1, s =>
    match s.jobs with
    | [] => if s.reading.isNone then .ok s else .error .macroNesting
    | j :: js =>
      match s.reading with
      | some r => do
        if j.file ≠ r.file ∨ !j.chain.isEmpty then .error .macroNesting
        let s ← (s.take j js).readLine r j
        s.run fs n
      | none => do
        let s ← (s.take j js).defineLabels j j.line.labels
        let s ← s.body fs j j.line.body
        s.run fs n

/-- The macros that a line refers to, if it stands in a file: what `Asm.callees` and so `Asm.cyclic` follow. -/
def Asm.callsOf (s : Asm) (file : Nat) (l : Line) : List (Nat × Text) :=
  match l.body with
  | .command n _ =>
    match s.scope file n.qual with
    | .error _ => []
    | .ok f =>
      (s.defs.filter fun d => n.mark = .none && d.id = n.id && (f.isNone || f = some d.file)).map fun d => (d.file, d.id)
  | .empty => []
  | .addr _ => []
  | .const _ _ _ => []
  | .dataB _ => []
  | .dataW _ => []
  | .mac _ _ => []
  | .endMac => []
  | .use _ _ => []

/-- The macros that a macro's lines refer to, in the macro's own file. -/
def Asm.callees (s : Asm) (m : Nat × Text) : List (Nat × Text) :=
  (s.defs.map fun d =>
    match d.means with
    | .mac b => if (d.file, d.id) = m then (b.body.map (s.callsOf d.file)).flatten else []
    | .label _ => []
    | .const _ => []).flatten

/-- What so many references lead to. -/
def Asm.reach (s : Asm) : Nat → List (Nat × Text) → List (Nat × Text)
  | 0, ms => ms
  | n + 1, ms => s.reach n (ms ++ (ms.map s.callees).flatten).eraseDups

/-- A macro definition is cyclic if its references lead back to it, whether or not it is expanded (R106, log 32). -/
def Asm.cyclic (s : Asm) : Bool :=
  s.defs.any fun d => (d.file, d.id) ∈ s.reach s.defs.length (s.callees (d.file, d.id))

/-- What holds of a program once all of it is known: each name used in the first phase still denotes one definition
(R109), each constant has a value (R112, log 32), no macro definition is cyclic (R106). -/
def Asm.check (s : Asm) : Except AsmError Asm := do
  if s.cyclic then .error .cyclicMacro
  let _ ← s.used.mapM fun r => lookup s.defs r.1 r.2
  let _ ← s.defs.mapM fun d =>
    match d.means with
    | .const t => evaluate s.defs t
    | .label a => .ok a
    | .mac _ => .ok 0
  .ok s

/-- A line of the listing: file, line number, address, the instruction in canonical names, the bytes (R105, R114). -/
structure Listed where
  file : Text
  number : Nat
  addr : Word
  canonical : Option (Text × Text × Text)
  bytes : List Byte
  deriving DecidableEq, Repr

/-- The bytes of an item, in the second phase (R112, R113). -/
def Item.bytes (defs : List Def) : Item → Except AsmError (List Byte)
  | .byte b => .ok [b]
  | .lowOf t => do
    let v ← evaluate defs t
    .ok [lowByte v]
  | .wordOf t => do
    let v ← evaluate defs t
    .ok [lowByte v, highByte v]

/-- The canonical name of a register or CSR (R105). -/
def canonicalName (isCsr : Bool) (n : BitVec 4) : Text :=
  ascii (if isCsr then "csr" else "r") ++ twoDigits n.toNat

/-- The second phase on one line's code (R113). -/
def Piece.listed (files : List Text) (defs : List Def) (p : Piece) : Except AsmError Listed := do
  let bs ← p.items.mapM (Item.bytes defs)
  .ok { file := files.getD p.file [], number := p.number, addr := p.addr,
        canonical := p.canonical.map fun c =>
          (c.1, canonicalName (c.1 == ascii "csrw") c.2.1, canonicalName (c.1 == ascii "csrr") c.2.2),
        bytes := bs.flatten }

/-- The assembler before its first line. -/
def Asm.initial : Asm :=
  { addr := Config.asmStart, defs := [], spaces := [], files := [], count := 0, last := [], trace := [], used := [],
    reading := none, jobs := [] }

/-- The first phase on a file with the files it uses, in fewer than `bound` lines (R113). -/
def firstPhase (fs : List (Text × Text)) (bound : Nat) (main : Text) : Except AsmError Asm :=
  match fs.find? fun p => p.1 = main with
  | none => .error (.noFile main)
  | some p => do
    let ls ← parseFile p.2
    let jobs := ls.map fun l =>
      ({ file := 0, origin := 0, frame := .file 0, own := 0, chain := [], bound := [], line := l } : Job)
    let s ← ({ Asm.initial with files := [main], jobs := jobs }).run fs bound
    s.check

/-- What the `.out` file shows: a source line, the listing of a line's code (R114). -/
inductive Shown where
  | source (text : Text)
  | code (l : Listed)
  deriving DecidableEq, Repr

/-- The second phase on what the first has met (R113). -/
def Entry.shown (files : List Text) (defs : List Def) : Entry → Except AsmError Shown
  | .source t => .ok (.source t)
  | .code p => do
    let l ← p.listed files defs
    .ok (.code l)

/-- Assembles a file with the files it uses, in fewer than `bound` lines: the source with the listing of its code, in the
order of the source (R113, R114). -/
def assembleShown (fs : List (Text × Text)) (bound : Nat) (main : Text) : Except AsmError (List Shown) := do
  let s ← firstPhase fs bound main
  s.trace.reverse.mapM (Entry.shown s.files s.defs)

/-- The listings among what is shown. -/
def listings (l : List Shown) : List Listed :=
  l.filterMap fun e =>
    match e with
    | .code c => some c
    | .source _ => none

/-- The listing of an assembled file. -/
def assemble (fs : List (Text × Text)) (bound : Nat) (main : Text) : Except AsmError (List Listed) := do
  let l ← assembleShown fs bound main
  .ok (listings l)

/-- The bytes of the code with their addresses, in the order of the source. -/
def placed (l : List Listed) : List (Nat × Byte) :=
  (l.map fun e => e.bytes.zipIdx.map fun b => (e.addr.toNat + b.2, b.1)).flatten

/-- One byte more in a memory image sorted by address; two at one address are an error (log 30). -/
def insertByte (a : Nat) (v : Byte) : List (Nat × Byte) → Except AsmError (List (Nat × Byte))
  | [] => .ok [(a, v)]
  | (b, u) :: rest =>
    if a < b then .ok ((a, v) :: (b, u) :: rest)
    else if a = b then .error .overlap
    else do
      let r ← insertByte a v rest
      .ok ((b, u) :: r)

/-- The memory image: the code sorted by address. -/
def imageOf (l : List Listed) : Except AsmError (List (Nat × Byte)) :=
  (placed l).foldlM (fun m p => insertByte p.1 p.2 m) []

/-- The contents from address `a` up to the last byte of a sorted image; a gap holds free bytes (log 30). -/
def contents (a : Nat) : List (Nat × Byte) → List Byte
  | [] => []
  | (b, v) :: rest => ((List.range (b - a)).map fun k => Config.asmGap (a + k)) ++ v :: contents (b + 1) rest

/-- So many hexadecimal digits of a number, in lower case (log 33). -/
def hexDigitsOf : Nat → Nat → Text
  | 0, _ => []
  | n + 1, v => hexDigitsOf n (v / 16) ++ [BitVec.ofNat 8 (if v % 16 < 10 then 0x30 + v % 16 else 0x57 + v % 16)]

/-- Four hexadecimal digits. -/
def hexDigits (v : Word) : Text := hexDigitsOf 4 v.toNat

/-- The start address of a memory image: its lowest address, and 0 for no code (log 33). -/
def startOf (m : List (Nat × Byte)) : Nat :=
  match m with
  | [] => 0
  | (a, _) :: _ => a

/-- The data of the `.bin` and `.mif` files: the start address and the bytes from there on (R114). With the `.mif` file in
the FPGA's configuration it is the image of `State.powerUp` (R283). -/
def imageData (m : List (Nat × Byte)) : Word × List Byte := (BitVec.ofNat 16 (startOf m), contents (startOf m) m)

/-- The `.bin` file: a line with the start address, then the memory contents (R114). -/
def binFile (m : List (Nat × Byte)) : Text := hexDigits (imageData m).1 ++ [0x0a] ++ (imageData m).2

/-- The `.mif` file: the same data in another form (R114, log 33). -/
def mifFile (m : List (Nat × Byte)) : Text := Config.mifText (imageData m).1 (imageData m).2

/-- A line that the assembler adds to the source: it starts with `;` (R114). -/
def addedLine (t : Text) : Text := ascii "; " ++ t ++ [0x0a]

/-- The lines added for the code of a line: file name and line number; mnemonic and registers in canonical names, for an
instruction; address and bytes (R105, R114). The punctuation is the model's choice (log 33). -/
def Listed.lines (l : Listed) : Text :=
  addedLine (l.file ++ ascii ":" ++ decimal 20 l.number) ++
  (match l.canonical with
    | some (m, d, s) => addedLine (m ++ ascii " " ++ d ++ ascii ", " ++ s)
    | none => []) ++
  addedLine (hexDigits l.addr ++ ascii ":" ++ (l.bytes.map fun b => ascii " " ++ hexDigitsOf 2 b.toNat).flatten)

/-- What an entry contributes to the `.out` file. -/
def Shown.lines : Shown → Text
  | .source t => t ++ [0x0a]
  | .code l => l.lines

/-- The `.out` file: the source, annotated on added lines (R114). -/
def outFile (l : List Shown) : Text := (l.map Shown.lines).flatten

/-- What `mb50as` does: its exit code, the files it writes, the error it reports (R114). -/
structure Invocation where
  exitCode : Nat
  files : List (Text × Text)
  error : Option AsmError
  deriving DecidableEq, Repr

/-- `FILE` of `FILE.s`; a name without the suffix is kept whole (log 33). -/
def baseName (main : Text) : Text :=
  if main.drop (main.length - 2) = ascii ".s" then main.take (main.length - 2) else main

/-- The files `mb50as` writes on success (R114). -/
def outputs (fs : List (Text × Text)) (bound : Nat) (main : Text) : Except AsmError (List (Text × Text)) := do
  let l ← assembleShown fs bound main
  let m ← imageOf (listings l)
  .ok [(baseName main ++ ascii ".bin", binFile m), (baseName main ++ ascii ".mif", mifFile m),
    (baseName main ++ ascii ".out", outFile l)]

/-- `mb50as FILE.s` (R114): after an error nothing is written (log 33) and the exit code is 1. `-v` adds only messages on
the standard error. -/
def mb50as (fs : List (Text × Text)) (bound : Nat) (main : Text) : Invocation :=
  match outputs fs bound main with
  | .ok os => { exitCode := 0, files := os, error := none }
  | .error e => { exitCode := 1, files := [], error := some e }

/-- What `mb50as` writes to `FILE.bin` (R114). -/
def assembleBin (fs : List (Text × Text)) (bound : Nat) (main : Text) : Except AsmError Text := do
  let l ← assemble fs bound main
  let m ← imageOf l
  .ok (binFile m)

end Sys2Proof.Machine
end

