-- ==== Sys2Proof/Machine/Debugger.lean ====
section
/-! DEFINITION. The debugger's commands as far as they act on the machine (R2, R273, R274, R276, R277): each is a list of
turns put on the agenda. What the rules leave open is in log 34. -/

namespace Sys2Proof.Machine

/-- The debugger's commands (R273, R274, R276). `interrupt` has no entry in the source (C13) and `watch` is not implemented
(R276); a breakpoint is `runToBreakpoint`. -/
inductive DebugCommand where
  /-- `register`: display all registers. -/
  | showRegisters
  /-- `register NAME`. -/
  | showRegister (r : Reg)
  /-- `register NAME VALUE`. -/
  | setRegister (r : Reg) (v : Word)
  /-- `csr`: display all CSRs. -/
  | showCsrs
  /-- `csr NAME`. -/
  | showCsr (c : Csr)
  /-- `csr NAME VALUE`. -/
  | setCsr (c : Csr) (v : Word)
  /-- `dump`: read bytes from an address, as many as its SIZE says (`byteCount`). -/
  | dump (a : Word) (n : Nat)
  /-- `memset ADDR VALUE...`: each value with its width in bytes, stored little endian. -/
  | memset (a : Word) (values : List (Nat × Nat))
  /-- `load FILE [ADDR]`: the contents of the file, and the address if one is given, which takes the place of the one in
  the file's first line (log 34). -/
  | load (file : Text) (a : Option Word)
  /-- `save FILE [ADDR SIZE]`: the range it reads if one is given (log 34). -/
  | save (range : Option (Word × Nat))
  /-- `step`. -/
  | step
  /-- `execute`. -/
  | execute
  /-- A newline entered while `execute` runs (R275, R277). -/
  | newline
  deriving DecidableEq, Repr

/-- The registers in the order of their numbers: what `register` without a name shows, DESIGN CHOICE (R273, log 34). -/
def allRegs : List Reg := [.r0, .r1, .r2, .r3, .r4, .r5, .r6, .r7, .r8, .r9, .r10, .sp, .ca, .ia, .f, .pc]

/-- The CSRs in the order of their numbers, `csr6` to `csr15` too: what `csr` without a name shows, DESIGN CHOICE (R273,
log 34). -/
def allCsrs : List Csr :=
  [.csr0, .csr1, .csr2, .csr3, .csr4, .csr5, .csr6, .csr7, .csr8, .csr9, .csr10, .csr11, .csr12, .csr13, .csr14, .csr15]

/-- The bytes of a number, the lowest first (R274). -/
def littleEndian : Nat → Nat → List Byte
  | 0, _ => []
  | n + 1, v => BitVec.ofNat 8 v :: littleEndian n (v / 256)

/-- Writes of bytes to consecutive addresses. -/
def writesFrom (a : Word) (bs : List Byte) : List CdiCommand :=
  bs.zipIdx.map fun p => .writeMem (a + BitVec.ofNat 16 p.2) p.1

/-- Reads of consecutive addresses. -/
def readsFrom (a : Word) (n : Nat) : List CdiCommand :=
  (List.range n).map fun k => .readMem (a + BitVec.ofNat 16 k)

/-- A number of hexadecimal digits and nothing else. -/
def hexNumber (t : Text) : Option Nat := if t.all fun b => (digitValue b).isSome then digits 16 0 false t else none

/-- A file with its start address in a line before the contents (R114, R274), in any number of digits (log 34). -/
def splitBin (t : Text) : Option (Word × List Byte) :=
  match t.dropWhile (· != 0x0a) with
  | [] => none
  | _ :: bs =>
    match hexNumber (t.takeWhile (· != 0x0a)) with
    | some n => if n < 2 ^ 16 then some (BitVec.ofNat 16 n, bs) else none
    | none => none

/-- How many bytes a SIZE asks for: zero means the whole address space, 65536 bytes (R274, E12 of 95_test_vectors.md). -/
def byteCount (size : Nat) : Nat := if size = 0 then 2 ^ 16 else size

/-- The start address and the number of bytes that `save` reads: those of the range given, or of one the spec leaves open
(log 34). -/
def saveRange (draws : Nat) (range : Option (Word × Nat)) : Word × Nat :=
  let r := range.getD (Config.saveRange draws)
  (r.1, byteCount r.2)

/-- The turns a command takes (R273, R274, R276), with the count of free values used so far: none when the file of a `load`
has no line with a start address, which is needed also where `ADDR` takes its place (log 34). A single step is the command
and the CPU's turn. -/
def DebugCommand.turns (draws : Nat) : DebugCommand → Option (List Turn)
  | .showRegisters => some (allRegs.map fun r => .event (.cdi (.readReg r)))
  | .showRegister r => some [.event (.cdi (.readReg r))]
  | .setRegister r v => some [.event (.cdi (.setReg r v))]
  | .showCsrs => some (allCsrs.map fun c => .event (.cdi (.readCsr c)))
  | .showCsr c => some [.event (.cdi (.readCsr c))]
  | .setCsr c v => some [.event (.cdi (.setCsr c v))]
  | .dump a n => some ((readsFrom a (byteCount n)).map fun c => .event (.cdi c))
  | .memset a vs =>
    some ((writesFrom a (vs.map fun p => littleEndian p.1 p.2).flatten).map fun c => .event (.cdi c))
  | .load file a =>
    match splitBin file with
    | some (b, bs) => some ((writesFrom (a.getD b) bs).map fun c => .event (.cdi c))
    | none => none
  | .save range =>
    let r := saveRange draws range
    some ((readsFrom r.1 r.2).map fun c => .event (.cdi c))
  | .step => some [.event (.cdi .step), .cpu]
  | .execute => some [.event (.cdi .run)]
  | .newline => some [.event (.cdi .stop)]

/-- One thing after another, up to a fault or refusal. -/
def andThen (o : Out) (f : State → Out) : Out :=
  match o with
  | .next t => f t
  | .fault r => .fault r
  | .refused r => .refused r

/-- So many steps, up to a fault or refusal. -/
def steps : Nat → State → Out
  | 0, s => .next s
  | n + 1, s => andThen (step s) (steps n)

/-- The turns take place before what is on the agenda. -/
def State.takeTurns (s : State) (ts : List Turn) : Out := steps ts.length (s.putAgenda (ts ++ s.agenda))

/-- A debugger command carried out; one that cannot be does nothing. The range of a `save` that names none is a free value
used. -/
def State.debug (s : State) (c : DebugCommand) : Out :=
  match c.turns s.draws with
  | some ts => (s.bump (if c = .save none then 1 else 0)).takeTurns ts
  | none => .next s

/-- The byte of memory in a reply. -/
def CdiReply.byte : CdiReply → Option Byte
  | .mem _ b => some b
  | .reg _ _ => none
  | .csr _ _ => none

/-- The file that `save` writes, from the states before and after it: the start address in a line, then the bytes of its own
replies (R114, R274). -/
def savedFile (range : Option (Word × Nat)) (s t : State) : Text :=
  let r := saveRange s.draws range
  hexDigits r.1 ++ [0x0a] ++ ((t.replies.drop s.replies.length).take r.2).filterMap CdiReply.byte

/-- The CPU's next turn would execute an instruction at one of the addresses: at the handler's entry, when that is due,
else at `pc` (R246, R276). -/
def State.atBreakpoint (s : State) (points : List Word) : Bool := !s.halted && s.reg s.fetchReg ∈ points

/-- `execute` with breakpoints (R276): whenever it is the CPU's turn, the debugger stops the CPU if the instruction to be
executed is at one of them, also the first one, and else commands a single step; a newline on the agenda stops it too.
Other agents' turns come where the agenda has them (log 34). The number bounds the turns. -/
def State.runToBreakpoint (points : List Word) : Nat → State → Out
  | 0, s => .next s
  | n + 1, s =>
    match s.agenda with
    | .event (.cdi .stop) :: _ => step s
    | .event _ :: _ => andThen (step s) (State.runToBreakpoint points n)
    | rest =>
      if s.atBreakpoint points then .next (s.cdi .stop)
      else
        andThen (steps 2 (s.putAgenda (.event (.cdi .step) :: .cpu :: rest.tail))) (State.runToBreakpoint points n)

end Sys2Proof.Machine
end

