-- ==== Sys2Proof/Machine/Display.lean ====
section
/-! DEFINITION. The picture: the colour the display controller shows for each logical pixel, for the border and for each
pixel of the screen, read from the video memory (R266 to R269). No step uses it (R270). -/

namespace Sys2Proof.Machine

/-- The byte of video memory at offset `n` from VIDEO_ADDR, read through the display's own port (R72, R79). -/
def State.videoByte (s : State) (n : Nat) : Byte := s.mem.read (Config.videoAddr.toNat + n)

/-- The bitmap bit of the pixel in column `x` and row `y`: lines from the top, the least significant bit leftmost (R266). -/
def State.pixelBit (s : State) (x : Fin 256) (y : Fin 192) : Bool :=
  (s.videoByte (32 * y.val + x.val / 8)).getLsbD (x.val % 8)

/-- The attribute byte of the 8 by 8 block that holds the pixel (R267, log 24). -/
def State.attribute (s : State) (x : Fin 256) (y : Fin 192) : Byte :=
  s.videoByte (6144 + 32 * (y.val / 8) + x.val / 8)

/-- The colour in bits 2:0 of a byte: red, green, blue (R267, R268). -/
def lowColour (b : Byte) : Colour := { red := b.getLsbD 2, green := b.getLsbD 1, blue := b.getLsbD 0 }

/-- The colour in bits 6:4 of an attribute byte (R267). -/
def highColour (b : Byte) : Colour := { red := b.getLsbD 6, green := b.getLsbD 5, blue := b.getLsbD 4 }

/-- The block's colours are shown exchanged: its blink bit is set, blinking is enabled, and the phase says so (R269). -/
def State.exchanged (s : State) (attr : Byte) : Bool := attr.getLsbD 7 && s.blinkPeriod != 0 && s.display.phase

/-- The colour of a pixel (R266, R267, R269); with the attribute's bit 3 set it is free (U11, log 24). -/
def State.pixel (s : State) (x : Fin 256) (y : Fin 192) : Colour :=
  let a := s.attribute x y
  if a.getLsbD 3 then
    Config.freeColour x.val y.val a (s.pixelBit x y) s.blinkPeriod s.display.phase s.display.frames
  else if s.pixelBit x y != s.exchanged a then highColour a
  else lowColour a

/-- The colour of the border (R268); with one of bits 7:3 set it is free (U11, log 24). -/
def State.border (s : State) : Colour :=
  let b := s.videoByte 6912
  if b &&& 0xf8#8 = 0 then lowColour b else Config.freeBorder b s.display.phase s.display.frames

/-- The colour of each of the 640 by 480 pixels of the screen: every logical pixel takes two by two of them, the rest is
border (R266). Where the 512 by 384 lie is free (log 24). -/
def State.screen (s : State) (x : Fin 640) (y : Fin 480) : Colour :=
  let u := x.val - Config.windowLeft.val
  let v := y.val - Config.windowTop.val
  if h : Config.windowLeft.val ≤ x.val ∧ Config.windowTop.val ≤ y.val ∧ u < 512 ∧ v < 384 then
    s.pixel ⟨u / 2, by omega⟩ ⟨v / 2, by omega⟩
  else s.border

end Sys2Proof.Machine
end

