-- ==== Sys2Proof/Safety.lean ====
section
/-! DEFINITION. The words claims are written in: a sound state, the parts of the machine that stay as they were, the flags
an instruction signals, the effect of an exception. None of it is used by the machine. -/

namespace Sys2Proof.Machine

/-- A sound state: RAM is in canonical form and holds RAM addresses only (R71), the reserved bits of `csr0` are 0 (R40), and
a halted CPU has its exception still pending (R231, R249). -/
def Sound (s : State) : Prop :=
  s.mem.wf = true ∧ s.csrs.csr0 &&& 0xfe00#16 = 0 ∧ (s.halted = true → s.exc = true)

/-- The byte of RAM at an address (R71): what a read of it answers. -/
def State.ram (s : State) (a : Word) : Byte := s.mem.read a.toNat

/-- Every byte of RAM reads as before. -/
def SameRam (s t : State) : Prop := ∀ a, t.ram a = s.ram a

/-- The keyboard, the clock and the display are as before. -/
def SameDevices (s t : State) : Prop := t.kbd = s.kbd ∧ t.clk = s.clk ∧ t.display = s.display

/-- What no instruction touches: the agenda, the CDI's replies, the build's parameters, the run state (R48). -/
def SameOutside (s t : State) : Prop :=
  t.agenda = s.agenda ∧ t.replies = s.replies ∧ t.params = s.params ∧ t.run = s.run

/-- Nothing but registers, CSRs and the model's count of free values can differ. -/
def SameElsewhere (s t : State) : Prop :=
  t.halted = s.halted ∧ SameRam s t ∧ SameDevices s t ∧ SameOutside s t

/-- Every register not listed is as before. -/
def RegsSameBut (l : List Reg) (s t : State) : Prop := ∀ q, q ∉ l → t.reg q = s.reg q

/-- The CSRs are as before but for `H`, bit 8 of `csr0`. -/
def SameCsrsButH (s t : State) : Prop :=
  (∀ j, j ≠ 8 → t.csrs.csr0.getLsbD j = s.csrs.csr0.getLsbD j) ∧
  t.csrs.csr1 = s.csrs.csr1 ∧ t.csrs.csr2 = s.csrs.csr2 ∧ t.csrs.csr3 = s.csrs.csr3 ∧
  t.csrs.csr4 = s.csrs.csr4 ∧ t.csrs.csr5 = s.csrs.csr5

/-- Some bit 9 to 15 of `f` is 1 now and was 0 before. -/
def NewlyPending (s t : State) : Prop :=
  ∃ j, 9 ≤ j ∧ j ≤ 15 ∧ t.f.getLsbD j = true ∧ s.f.getLsbD j = false

/-- The CSRs after an instruction that may have stored into `f`: `H` is cleared when it newly set a bit 9 to 15, and nothing
else changes (R241). -/
def CsrsAfterStore (s t : State) : Prop :=
  (NewlyPending s t → t.csrs.csr0.getLsbD 8 = false ∧ SameCsrsButH s t) ∧
  (¬ NewlyPending s t → t.csrs = s.csrs)

/-- Bits 4 to 7 of `f`, `z`, `c`, `s`, `o`, say these things (R29). -/
def FlagsSay (t : State) (z c sg o : Prop) : Prop :=
  (t.f.getLsbD 4 = true ↔ z) ∧ (t.f.getLsbD 5 = true ↔ c) ∧ (t.f.getLsbD 6 = true ↔ sg) ∧ (t.f.getLsbD 7 = true ↔ o)

/-- Every bit of `f` but 4 to 7 is as before (R30). -/
def OtherFlagBitsSame (s t : State) : Prop := ∀ j, j < 4 ∨ 8 ≤ j → t.f.getLsbD j = s.f.getLsbD j

/-- The frame of an instruction that stores into the listed registers and changes neither flag nor memory. -/
def StoresOnly (l : List Reg) (s t : State) : Prop :=
  RegsSameBut l s t ∧ CsrsAfterStore s t ∧ SameElsewhere s t

/-- The effect of a computational instruction with destination `d`: the result, the flags unless `f` is the destination
(R34), nothing else. -/
def Computes (s t : State) (d : Reg) (r : Word) (z c sg o : Prop) : Prop :=
  t.reg d = r ∧ RegsSameBut [d, .f] s t ∧ (d ≠ .f → FlagsSay t z c sg o ∧ OtherFlagBitsSame s t) ∧
  CsrsAfterStore s t ∧ SameElsewhere s t

/-- The effect of a hardware exception with reason `code` (R231, R232): REASON, `H` and `exc` are set, the CPU halts when
`ie` is 0, nothing else changes. -/
def Raises (s t : State) (code : Nat) : Prop :=
  (lowByte t.csrs.csr0).toNat = code ∧ t.csrs.csr0.getLsbD 8 = true ∧
  (∀ j, 9 ≤ j → t.csrs.csr0.getLsbD j = s.csrs.csr0.getLsbD j) ∧
  t.csrs = { s.csrs with csr0 := t.csrs.csr0 } ∧
  t.exc = true ∧ (∀ j, j ≠ 9 → t.f.getLsbD j = s.f.getLsbD j) ∧ RegsSameBut [.f] s t ∧
  (s.ie = false → t.halted = true) ∧ (s.ie = true → t.halted = s.halted) ∧
  SameRam s t ∧ SameDevices s t ∧ SameOutside s t

/-- The CPU may write the address: it is not in ROM_RANGE (R76). -/
def Writable (p : Params) (a : Word) : Prop := ∀ lo hi, p.romRange = some (lo, hi) → ¬(lo ≤ a ∧ a ≤ hi)

/-- The frame of a store: only memory and the keyboard controller can differ. -/
def StoresToMemoryOnly (s t : State) : Prop :=
  t.regs = s.regs ∧ t.csrs = s.csrs ∧ t.halted = s.halted ∧ t.clk = s.clk ∧ t.display = s.display ∧ SameOutside s t

/-- RAM after a word `v` has been stored at `a` by the CPU: its two bytes where RAM may be written, every other byte as
before (R60, R64, R76). -/
def WordStoredAt (s t : State) (a v : Word) : Prop :=
  (a ≤ Config.memMax → Writable s.params a → (t.ram a).toNat = v.toNat % 256) ∧
  (a + 1 ≤ Config.memMax → Writable s.params (a + 1) → (t.ram (a + 1)).toNat = v.toNat / 256) ∧
  (∀ x, (x ≠ a ∧ x ≠ a + 1) ∨ ¬ Writable s.params x → t.ram x = s.ram x)

/-- The keyboard controller after the CPU has stored `b` at `a`: a byte for `TXD` is in transmission (it was stored with
`T` = 1), any byte for `RXD` acknowledges the received one (R262, R263); no other address reaches the keyboard, `READY`
too (log 7). -/
def keyboardAfter (k : Keyboard) (a : Word) (b : Byte) : Keyboard :=
  if a = 0xffe0 then { k with ready := false, txd := b }
  else if a = 0xffe1 then { k with received := false }
  else k

/-- The keyboard controller after the CPU has stored the word `v` at `a`: its low byte there, its high byte one above (R60,
R69). -/
def keyboardAfterWord (k : Keyboard) (a v : Word) : Keyboard :=
  keyboardAfter (keyboardAfter k a (lowByte v)) (a + 1) (highByte v)

/-- The value of a little-endian word of RAM (R60). -/
def State.ramWord (s : State) (a : Word) : Nat := (s.ram a).toNat + 256 * (s.ram (a + 1)).toNat

/-- Both bytes of the word at `a` lie in RAM. -/
def WordInRam (a : Word) : Prop := a ≤ Config.memMax ∧ a + 1 ≤ Config.memMax

/-- What a read of a CSR answers (R38). -/
def CsrReads (s : State) (c : Csr) (v : Word) : Prop :=
  match c with
  | .csr0 => ∀ j, v.getLsbD j = (decide (j ≤ 8) && s.csrs.csr0.getLsbD j)
  | .csr1 => v = s.csrs.csr1
  | .csr2 => v = s.csrs.csr2
  | .csr3 => v = s.csrs.csr3
  | .csr4 => v = s.csrs.csr4
  | .csr5 => v = s.csrs.csr5
  | .csr6 | .csr7 | .csr8 | .csr9 | .csr10 | .csr11 | .csr12 | .csr13 | .csr14 | .csr15 => v = 0

/-- The CSRs after a write of `v` to one of them (R39). -/
def CsrWritten (s t : State) (c : Csr) (v : Word) : Prop :=
  match c with
  | .csr0 =>
    (∀ j, t.csrs.csr0.getLsbD j = if j < 8 then v.getLsbD j else s.csrs.csr0.getLsbD j) ∧
    t.csrs = { s.csrs with csr0 := t.csrs.csr0 }
  | .csr1 => t.csrs = { s.csrs with csr1 := v }
  | .csr2 => t.csrs = { s.csrs with csr2 := v }
  | .csr3 => t.csrs = { s.csrs with csr3 := v }
  | .csr4 => t.csrs = { s.csrs with csr4 := v }
  | .csr5 => t.csrs = { s.csrs with csr5 := v }
  | .csr6 | .csr7 | .csr8 | .csr9 | .csr10 | .csr11 | .csr12 | .csr13 | .csr14 | .csr15 => t.csrs = s.csrs

/-- The register in the `DSTR` field (R91). -/
def dstOf (i : Instr) : Reg := regOfField (i.fields.extractLsb' 4 4)

/-- The register in the `SRCR` field (R91). -/
def srcOf (i : Instr) : Reg := regOfField (i.fields.extractLsb' 0 4)

/-- The registers that an instruction's fields name as its outputs (R96): none for `ill`, `csrw`, the stores, the compares,
`reti` and the opcodes in no list; both for the instructions with two outputs and for those that increment the source;
`DSTR` for the others. -/
def outputsOf (i : Instr) : List Reg :=
  let op := i.opcode.toNat
  if op ∈ [0x00, 0x04, 0x15, 0x16, 0x19, 0x1b, 0x1c] ∨ (0x22 ≤ op ∧ op ≤ 0x7f) ∨ 0xd0 ≤ op then []
  else if op ∈ [0x07, 0x0c, 0x0d, 0x1e, 0x1f, 0x20, 0x21] ∨ (0x80 ≤ op ∧ op ≤ 0x8f) ∨ (0xa0 ≤ op ∧ op ≤ 0xbf) then
    [dstOf i, srcOf i]
  else [dstOf i]

/-- One instruction of a conditional family: the flag it tests, the value it expects, the instruction (R93, R99). -/
structure Conditional where
  flag : Nat
  value : Bool
  instr : Reg → Reg → Instr

/-- A family of sixteen, in the order of COND: the eight that expect 0, then the eight that expect 1 (R99). -/
def familyOf (l : List (Reg → Reg → Instr)) : List Conditional :=
  (List.range 16).zipWith (fun n i => { flag := n % 8, value := decide (8 ≤ n), instr := i }) l

/-- `exchNF` (R146). -/
def exchFamily : List Conditional := familyOf
  [.exchnf0, .exchnf1, .exchnf2, .exchnf3, .exchnz, .exchnc, .exchns, .exchno,
    .exchf0, .exchf1, .exchf2, .exchf3, .exchz, .exchc, .exchs, .excho]

/-- `ldNF` (R147). -/
def ldFamily : List Conditional := familyOf
  [.ldnf0, .ldnf1, .ldnf2, .ldnf3, .ldnz, .ldnc, .ldns, .ldno,
    .ldf0, .ldf1, .ldf2, .ldf3, .ldz, .ldc, .lds, .ldo]

/-- `ldNFis` (R148). -/
def ldisFamily : List Conditional := familyOf
  [.ldnf0is, .ldnf1is, .ldnf2is, .ldnf3is, .ldnzis, .ldncis, .ldnsis, .ldnois,
    .ldf0is, .ldf1is, .ldf2is, .ldf3is, .ldzis, .ldcis, .ldsis, .ldois]

/-- `ldxNFis` (R149). -/
def ldxFamily : List Conditional := familyOf
  [.ldxnf0is, .ldxnf1is, .ldxnf2is, .ldxnf3is, .ldxnzis, .ldxncis, .ldxnsis, .ldxnois,
    .ldxf0is, .ldxf1is, .ldxf2is, .ldxf3is, .ldxzis, .ldxcis, .ldxsis, .ldxois]

/-- `mvNF` (R150). -/
def mvFamily : List Conditional := familyOf
  [.mvnf0, .mvnf1, .mvnf2, .mvnf3, .mvnz, .mvnc, .mvns, .mvno,
    .mvf0, .mvf1, .mvf2, .mvf3, .mvz, .mvc, .mvs, .mvo]

/-- The test of a conditional instruction holds in a state (R145). -/
def Conditional.holds (c : Conditional) (s : State) : Prop := s.f.getLsbD c.flag = c.value

/-- The opcode byte of a member of the family whose opcodes begin at `base` (R93, R98). -/
def Conditional.opcodeFrom (c : Conditional) (base : Nat) (d s : Reg) : Prop :=
  (c.instr d s).opcode.toNat = base + (if c.value then 8 else 0) + c.flag

/-- An optional instruction with the parameter that must list it (R5, R203). -/
inductive IsOptional : OptionalInstr → Instr → Prop
  | ddsto (d s : Reg) : IsOptional .ddsto (.ddsto d s)
  | ldisx (d s : Reg) : IsOptional .ldisx (.ldisx d s)
  | neg (d s : Reg) : IsOptional .neg (.neg d s)
  | mulss (d s : Reg) : IsOptional .mulss (.mulss d s)
  | mulsu (d s : Reg) : IsOptional .mulsu (.mulsu d s)
  | mulus (d s : Reg) : IsOptional .mulus (.mulus d s)
  | muluu (d s : Reg) : IsOptional .muluu (.muluu d s)
  | exchNF (c : Conditional) (d s : Reg) : c ∈ exchFamily → IsOptional .exchNF (c.instr d s)
  | ldxNFis (c : Conditional) (d s : Reg) : c ∈ ldxFamily → IsOptional .ldxNFis (c.instr d s)

/-- The instructions that raise a hardware exception in a build with these parameters (R200, R203): `ill`, the opcodes in
no list, the optional instructions it does not implement. -/
inductive RaisesException (p : Params) : Instr → Prop
  | ill (d s : Reg) : RaisesException p (.ill d s)
  | unassigned (i : Instr) :
      (0x22 ≤ i.opcode.toNat ∧ i.opcode.toNat ≤ 0x7f) ∨ 0xd0 ≤ i.opcode.toNat → RaisesException p i
  | optional (o : OptionalInstr) (i : Instr) : IsOptional o i → o ∉ p.implemented → RaisesException p i

end Sys2Proof.Machine
end

