-- ==== Sys2Proof/Certificates/Slice0/Obligations.lean ====
section
/-! DEFINITION. The statements for the provers. Each docstring names the rule of spec/ it formalises, or says that it rests
on a choice of the model and names its log entry. -/

open Sys2Proof Sys2Proof.Machine

/-! ## Encoding -/

/-- Decoding the encoding of any well-formed instruction gives it back (R90 to R103). -/
def Obligations.DecodeOfEncode : Prop :=
  ∀ (i : Instr) (rest : List Byte), i.wf = true → decode (encodeBytes i ++ rest) = .ok (i, rest)

/-- Every pair of bytes decodes to a well-formed instruction whose encoding is that pair: no bit is dropped (R90, R94).
-/
def Obligations.EncodeOfDecode : Prop :=
  ∀ (op ds : Byte), (decodeInstr op ds).wf = true ∧ encodeBytes (decodeInstr op ds) = [op, ds]

/-- Words written out from the encoding tables decode to the instructions they stand for (R61, R97, R98). -/
def Obligations.SampleWordsDecode : Prop :=
  decodeTableWord 16 0b0001001000000001 = some (.add .r1 .r2) ∧
  decodeTableWord 16 0b1011110000010101 = some (.sto .sp .ca) ∧
  decodeTableWord 16 0b1111001110011100 = some (.ldz .pc .r3) ∧
  decodeTableWord 16 0b0001010100000100 = some (.csrw .csr1 .r5) ∧
  decodeTableWord 16 0b1111110100011100 = some (.reti .pc .ia) ∧
  decodeTableWord 16 0b0001001000100001 = some (.muluu .r1 .r2) ∧
  decodeTableWord 16 0b1111111111111111 = some (.unassignedE0 0xff .pc .pc)

/-- The assembler's mnemonics name exactly the opcodes of the instruction list, each one opcode and each opcode one
mnemonic (R97, R100, R102, R105). -/
def Obligations.MnemonicsNameOpcodes : Prop :=
  (∀ (m : Text) (op : Byte), opcodeNamed m = some op ↔ mnemonicOf op = some m) ∧
  (∀ op : Byte, (mnemonicOf op).isSome = true ↔ op.toNat ≤ 0x21 ∨ (0x80 ≤ op.toNat ∧ op.toNat ≤ 0xcf))

/-! ## The whole machine -/

/-- Every step from a sound state that gives a next state gives a sound one (R40, R49, R71). -/
def Obligations.StepKeepsInvariant : Prop :=
  ∀ s t : State, Sound s → step s = .next t → Sound t

/-- The state after reset is sound, and so is that after power-up with any image on any build. The CSRs and RAM of that
state are the model's choice (log 1, log 2). -/
def Obligations.InvariantAtReset : Prop :=
  Sound State.reset ∧
  ∀ (build : Params) (image : Word × List Byte) (others : Memory), others.wf = true →
    Sound (State.powerUp build image others)

/-- After power-up, with whatever image and build, and after every reset each register is 0 (R24), and the first
instruction is fetched from 0x0000 (R28). -/
def Obligations.RegistersAtReset : Prop :=
  ∀ t : State, (t = State.reset ∨ (∃ build image others, t = State.powerUp build image others) ∨
      ∃ s, applyEvent .reset s = .next t) →
    (∀ r, t.reg r = 0) ∧ t.testInterrupts.fetch.1 = decodeInstr (t.ram 0) (t.ram 1)

/-- A running CPU whose turn it is and that has no handler to enter executes the instruction its two bytes at `pc`
decode to, with `pc` already past it (R26). What remains of the agenda stays; a CPU in single-step mode does the same
and is then stopped (R276). One instruction a step is the spec's decision D11 (log 13); the addition modulo 2^16 is D2
(log 20). -/
def Obligations.StepRunsDecodedInstruction : Prop :=
  ∀ (s : State) (i : Instr), s.halted = false → s.run ≠ .stopped → (∀ e rest, s.agenda ≠ .event e :: rest) →
    (s.ie = false ∨ ∀ j, 9 ≤ j → j ≤ 15 → s.f.getLsbD j = false) → WordInRam s.pc →
    decode [s.ram s.pc, s.ram (s.pc + 1)] = .ok (i, []) →
    (s.run = .running → step s = exec i ((s.putAgenda s.agenda.tail).putReg .pc (s.pc + 2))) ∧
    (s.run = .singleStep → step s = stopAfter (exec i ((s.putAgenda s.agenda.tail).putReg .pc (s.pc + 2))))

/-- With `ie` set and some bit 9 to 15 of `f` set, a running CPU first enters the handler, clearing `ie` and exchanging
`pc` and `ia`, and executes the handler's first instruction in the same step (R246, R247, R248); in single-step mode it
is then stopped (R276). That entry and the instruction are one step is the spec's decision D11 (log 13). -/
def Obligations.StepEntersHandler : Prop :=
  ∀ (s : State) (i : Instr) (k : Nat), s.halted = false → s.run ≠ .stopped → (∀ e rest, s.agenda ≠ .event e :: rest) →
    s.ie = true → 9 ≤ k → k ≤ 15 → s.f.getLsbD k = true → WordInRam (s.reg .ia) →
    decode [s.ram (s.reg .ia), s.ram (s.reg .ia + 1)] = .ok (i, []) →
    ∃ u : State, (s.run = .running → step s = exec i u) ∧ (s.run = .singleStep → step s = stopAfter (exec i u)) ∧
      u.pc = s.reg .ia + 2 ∧ u.reg .ia = s.pc ∧ u.ie = false ∧
      (∀ j, j ≠ 8 → u.f.getLsbD j = s.f.getLsbD j) ∧ RegsSameBut [.pc, .ia, .f] s u ∧ u.csrs = s.csrs ∧
      u.halted = false ∧ u.mem = s.mem ∧ SameDevices s u ∧ u.agenda = s.agenda.tail ∧ u.run = s.run ∧
      u.params = s.params ∧ u.replies = s.replies

/-- A halted CPU, and a stopped one, does nothing with its turn: no fetch, no interrupt test (R48, R249; that its turn
is a step is the model's choice, log 18). -/
def Obligations.HaltedOrStoppedTakesNoStep : Prop :=
  ∀ s : State, s.halted = true ∨ s.run = .stopped → (∀ e rest, s.agenda ≠ .event e :: rest) →
    step s = .next (s.putAgenda s.agenda.tail)

/-- A halt ends only by a reset or by the host setting `f` to a value whose bit 9 is 0 (R49, R249). -/
def Obligations.HaltEndsOnlyByResetOrHost : Prop :=
  ∀ s t : State, s.halted = true → step s = .next t → t.halted = false →
    (∃ rest, s.agenda = .event .reset :: rest) ∨
    (∃ v rest, s.agenda = .event (.cdi (.setReg .f v)) :: rest ∧ v.getLsbD 9 = false)

/-- The CPU halts only by executing an instruction that raises a hardware exception with interrupts disabled; no event
halts it (R49, R231). A software store that sets bit 9 does not halt: the spec's decision D13 (log 17). The clause on
`H` is D12 (log 16). -/
def Obligations.HaltBeginsOnlyByException : Prop :=
  (∀ (i : Instr) (s t : State), s.halted = false → exec i s = .next t → t.halted = true →
    s.ie = false ∧ (Raises s t 1 ∨ Raises s t 2)) ∧
  (∀ (e : Event) (s t : State), s.halted = false → applyEvent e s = .next t → t.halted = false)

/-- No instruction changes the run state (R48), the clock counter, the display, the agenda, the CDI's replies or the
build's parameters (R4, R257, R270). -/
def Obligations.InstructionsLeaveOutsideAlone : Prop :=
  ∀ (i : Instr) (s t : State), exec i s = .next t → SameOutside s t ∧ t.clk = s.clk ∧ t.display = s.display

/-- Only `sto`, `stob` and `ddsto` write memory or a device register (R47). -/
def Obligations.OnlyStoresWriteMemory : Prop :=
  ∀ (i : Instr) (s t : State), (∀ a b, i ≠ .sto a b ∧ i ≠ .stob a b ∧ i ≠ .ddsto a b) → exec i s = .next t →
    t.mem = s.mem ∧ t.kbd = s.kbd

/-- Every instruction completes from every state: the hardware has no fault but the two exceptions, which give a next
state (R230). That the forms of R138, R195 and R262 complete is the model's choice (log 8, log 9, log 10). -/
def Obligations.EveryInstructionCompletes : Prop := ∀ (i : Instr) (s : State), ∃ t, exec i s = .next t

/-- `csr1` to `csr5` are changed only by `csrw`, by the CDI and by a reset (R43, R44); what `csrw` puts there is read
back; `csr6` to `csr15` always read 0. -/
def Obligations.TemporariesChangedOnlyByCsrw : Prop :=
  (∀ (i : Instr) (s t : State), (∀ c r, i ≠ .csrw c r) → exec i s = .next t →
    t.csrs.csr1 = s.csrs.csr1 ∧ t.csrs.csr2 = s.csrs.csr2 ∧ t.csrs.csr3 = s.csrs.csr3 ∧
    t.csrs.csr4 = s.csrs.csr4 ∧ t.csrs.csr5 = s.csrs.csr5) ∧
  (∀ (e : Event) (s t : State), (∀ c v, e ≠ .cdi (.setCsr c v)) → e ≠ .reset → applyEvent e s = .next t →
    t.csrs.csr1 = s.csrs.csr1 ∧ t.csrs.csr2 = s.csrs.csr2 ∧ t.csrs.csr3 = s.csrs.csr3 ∧
    t.csrs.csr4 = s.csrs.csr4 ∧ t.csrs.csr5 = s.csrs.csr5) ∧
  (∀ c ∈ [Csr.csr1, .csr2, .csr3, .csr4, .csr5], ∀ (r : Reg) (s : State),
    ∃ t, exec (.csrw c r) s = .next t ∧ t.csrRead c = s.reg r) ∧
  (∀ c ∈ [Csr.csr6, .csr7, .csr8, .csr9, .csr10, .csr11, .csr12, .csr13, .csr14, .csr15], ∀ s : State, s.csrRead c = 0)

/-- REASON is unchanged until the next exception: an instruction that is not `csrw csr0` and raises none leaves it, and
so do the interrupt test, the fetch, and every event but a CDI write to `csr0` and a reset (R233). The clause on `H` is
D12 (log 16). -/
def Obligations.ReasonChangedOnlyByException : Prop :=
  (∀ (i : Instr) (s t : State), (∀ r, i ≠ .csrw .csr0 r) → exec i s = .next t →
    lowByte t.csrs.csr0 = lowByte s.csrs.csr0 ∨ Raises s t 1 ∨ Raises s t 2) ∧
  (∀ (e : Event) (s t : State), (∀ v, e ≠ .cdi (.setCsr .csr0 v)) → e ≠ .reset → applyEvent e s = .next t →
    lowByte t.csrs.csr0 = lowByte s.csrs.csr0) ∧
  (∀ s : State, lowByte s.testInterrupts.fetch.2.csrs.csr0 = lowByte s.csrs.csr0)

/-- The user flags `f0` to `f3` change only when an instruction stores into `f` as one of its outputs, when the CDI sets
`f` (R32), or at reset; nothing else withdraws a pending bit 9 to 15 (R36, R240). -/
def Obligations.FlagsKeptUnlessNamed : Prop :=
  (∀ (i : Instr) (s t : State), exec i s = .next t → .f ∉ outputsOf i →
    (∀ j, j < 4 → t.f.getLsbD j = s.f.getLsbD j) ∧ (∀ j, 9 ≤ j → s.f.getLsbD j = true → t.f.getLsbD j = true)) ∧
  (∀ (e : Event) (s t : State), applyEvent e s = .next t → (∀ v, e ≠ .cdi (.setReg .f v)) → e ≠ .reset →
    (∀ j, j < 4 → t.f.getLsbD j = s.f.getLsbD j) ∧ (∀ j, 9 ≤ j → s.f.getLsbD j = true → t.f.getLsbD j = true)) ∧
  (∀ (s : State) (j : Nat), j ≠ 8 → s.testInterrupts.fetch.2.f.getLsbD j = s.f.getLsbD j)

/-- No instruction changes a register but its outputs, the flags, and, for `reti`, `pc` and `ia`: `sp` and `ca` have no
use of their own (R22, R96). -/
def Obligations.RegistersKeptUnlessNamed : Prop :=
  ∀ (i : Instr) (s t : State) (q : Reg), exec i s = .next t → q ∉ outputsOf i → q ≠ .f →
    (i.opcode = 0x1c → q ≠ .pc ∧ q ≠ .ia) → t.reg q = s.reg q

/-! ## Moves -/

/-- `mv` and `exch` (R120, R121). A store into `f` that newly sets a bit 9 to 15 clears `H`: the spec's decision D12
(log 16). -/
def Obligations.MvCopiesExchExchanges : Prop :=
  ∀ (d r : Reg) (s : State), (Instr.mv d r).opcode = 0x0e ∧ (Instr.exch d r).opcode = 0x07 ∧
    (∃ t, exec (.mv d r) s = .next t ∧ t.reg d = s.reg r ∧ StoresOnly [d] s t) ∧
    (∃ t, exec (.exch d r) s = .next t ∧ t.reg d = s.reg r ∧ t.reg r = s.reg d ∧ StoresOnly [d, r] s t)

/-- `csrr` (R122, R38). A store into `f` that newly sets a bit 9 to 15 clears `H`: the spec's decision D12 (log 16). -/
def Obligations.CsrrReadsCsr : Prop :=
  ∀ (d : Reg) (c : Csr) (s : State), (Instr.csrr d c).opcode = 0x03 ∧
    ∃ t, exec (.csrr d c) s = .next t ∧ CsrReads s c (t.reg d) ∧ StoresOnly [d] s t

/-- `csrw` (R123, R39). -/
def Obligations.CsrwWritesCsr : Prop :=
  ∀ (c : Csr) (r : Reg) (s : State), (Instr.csrw c r).opcode = 0x04 ∧
    ∃ t, exec (.csrw c r) s = .next t ∧ CsrWritten s t c (s.reg r) ∧ t.regs = s.regs ∧ SameElsewhere s t

/-! ## Loads and stores -/

/-- `ld` (R131): the little-endian word of RAM at the address in the source; nothing else changes, wherever the address
points. A store into `f` that newly sets a bit 9 to 15 clears `H`: the spec's decision D12 (log 16). Addresses are
modulo 2^16: D2 (log 20). -/
def Obligations.LdLoadsWord : Prop :=
  ∀ (d r : Reg) (s : State), (Instr.ld d r).opcode = 0x0a ∧
    ∃ t, exec (.ld d r) s = .next t ∧ (WordInRam (s.reg r) → (t.reg d).toNat = s.ramWord (s.reg r)) ∧ StoresOnly [d] s t

/-- `ldb` (R132): the low byte is loaded, the high byte kept. A store into `f` that newly sets a bit 9 to 15 clears `H`:
the spec's decision D12 (log 16). -/
def Obligations.LdbLoadsLowByte : Prop :=
  ∀ (d r : Reg) (s : State), (Instr.ldb d r).opcode = 0x0b ∧
    ∃ t, exec (.ldb d r) s = .next t ∧ (t.reg d).toNat / 256 = (s.reg d).toNat / 256 ∧
      (s.reg r ≤ Config.memMax → (t.reg d).toNat % 256 = (s.ram (s.reg r)).toNat) ∧ StoresOnly [d] s t

/-- `ldis` (R133): with different registers the word is loaded and the source gains 2. With one register in both fields
some value stays in it and nothing else changes: the model's choice, R138 leaves the form open (log 8). A store into `f`
that newly sets a bit 9 to 15 clears `H`: the spec's decision D12 (log 16). Addresses are modulo 2^16: D2 (log 20). -/
def Obligations.LdisLoadsAndIncrements : Prop :=
  ∀ (d r : Reg) (s : State), (Instr.ldis d r).opcode = 0x0c ∧
    ∃ t, exec (.ldis d r) s = .next t ∧ StoresOnly [d, r] s t ∧
      (d ≠ r → (WordInRam (s.reg r) → (t.reg d).toNat = s.ramWord (s.reg r)) ∧
        (t.reg r).toNat = ((s.reg r).toNat + 2) % 2 ^ 16)

/-- `sto` (R135): the word's two bytes go to the address in the destination and the one above it, low byte first; no
register changes; the keyboard is touched only by a store that reaches `TXD` or `RXD`. The write dropped in ROM_RANGE is
D6 (log 15). Addresses are modulo 2^16: D2 (log 20). That a byte for `TXD` while `T` is 0 completes the store is the
model's choice (log 10, against D24); that one for `READY`, the clock counter or an unmapped address changes nothing is
the model's choice after D5 and D7 (log 7). -/
def Obligations.StoStoresWord : Prop :=
  ∀ (d r : Reg) (s : State), s.mem.wf = true → (Instr.sto d r).opcode = 0x15 ∧
    ∃ t, exec (.sto d r) s = .next t ∧ WordStoredAt s t (s.reg d) (s.reg r) ∧ StoresToMemoryOnly s t ∧
      (s.reg d ≠ Config.kbdAddr → s.reg d ≠ Config.kbdAddr + 1 → s.reg d + 1 ≠ Config.kbdAddr → t.kbd = s.kbd)

/-- `stob` (R136): one byte goes to the address in the destination. The write dropped in ROM_RANGE is D6 (log 15). That
a byte for `TXD` while `T` is 0 completes the store is the model's choice (log 10, against D24); that one for `READY`,
the clock counter or an unmapped address changes nothing is the model's choice after D5 and D7 (log 7). -/
def Obligations.StobStoresByte : Prop :=
  ∀ (d r : Reg) (s : State), s.mem.wf = true → (Instr.stob d r).opcode = 0x16 ∧
    ∃ t, exec (.stob d r) s = .next t ∧
      (s.reg d ≤ Config.memMax → Writable s.params (s.reg d) → (t.ram (s.reg d)).toNat = (s.reg r).toNat % 256) ∧
      (∀ x, x ≠ s.reg d ∨ ¬ Writable s.params x → t.ram x = s.ram x) ∧ StoresToMemoryOnly s t ∧
      (s.reg d ≠ Config.kbdAddr → s.reg d ≠ Config.kbdAddr + 1 → t.kbd = s.kbd)

/-- A byte stored to `TXD` while `T` is 1 starts its transmission; one stored to `RXD` acknowledges the received byte,
whatever its value (R262, R263); so does each byte of a word stored by `sto`, or by `ddsto` where implemented (R69). A
store into `f` that newly sets a bit 9 to 15 clears `H`: the spec's decision D12 (log 16). Addresses are modulo 2^16: D2
(log 20). That a byte for `READY` or an unmapped address changes nothing is the model's choice after D5 and D7 (log 7).
-/
def Obligations.StoresToKeyboard : Prop :=
  ∀ (d r : Reg) (s : State) (a : Word), Writable s.params a → (a = 0xffe0 → s.kbd.ready = true) →
    (s.reg d = a → ∃ t, exec (.stob d r) s = .next t ∧ t.kbd = keyboardAfter s.kbd a (lowByte (s.reg r)) ∧
      (Config.memMax < a → t.mem = s.mem) ∧ StoresToMemoryOnly s t) ∧
    (Writable s.params (a + 1) → (a + 1 = 0xffe0 → s.kbd.ready = true) →
      (s.reg d = a → ∃ t, exec (.sto d r) s = .next t ∧ t.kbd = keyboardAfterWord s.kbd a (s.reg r) ∧
        (Config.memMax < a → Config.memMax < a + 1 → t.mem = s.mem) ∧ StoresToMemoryOnly s t) ∧
      (.ddsto ∈ s.params.implemented → d ≠ r → s.reg d = a + 2 →
        ∃ t, exec (.ddsto d r) s = .next t ∧ t.reg d = a ∧ t.kbd = keyboardAfterWord s.kbd a (s.reg r) ∧
          (Config.memMax < a → Config.memMax < a + 1 → t.mem = s.mem) ∧ RegsSameBut [d] s t ∧ CsrsAfterStore s t ∧
          t.halted = s.halted ∧ t.clk = s.clk ∧ t.display = s.display ∧ SameOutside s t))

/-- Loads from device registers (R259, R263, R265): `RXD` while a byte is unacknowledged, `READY`, the clock counter; a
read changes no device. A store into `f` that newly sets a bit 9 to 15 clears `H`: the spec's decision D12 (log 16). The
counter's byte order is D18 (log 20), that no tick falls inside a load D11 (log 13). -/
def Obligations.LoadsFromDevices : Prop :=
  ∀ (d r : Reg) (s : State),
    (s.reg r = 0xffe1 → s.kbd.received = true →
      ∃ t, exec (.ldb d r) s = .next t ∧ (t.reg d).toNat % 256 = s.kbd.rxd.toNat ∧ StoresOnly [d] s t) ∧
    (s.reg r = 0xffe2 →
      ∃ t, exec (.ldb d r) s = .next t ∧
        (t.reg d).toNat % 256 = s.kbd.received.toNat + 2 * s.kbd.ready.toNat ∧ StoresOnly [d] s t) ∧
    (s.reg r = 0xfff0 → ∃ t, exec (.ld d r) s = .next t ∧ t.reg d = s.clk ∧ StoresOnly [d] s t)

/-- `ldisx` (R134): where implemented, and with different registers, the loaded word ends in the source and the
incremented address in the destination; where not, IINSTR. A store into `f` that newly sets a bit 9 to 15 clears `H`:
the spec's decision D12 (log 16). Addresses are modulo 2^16: D2 (log 20). One register in both fields completes with a
free value, the model's choice (log 8). -/
def Obligations.LdisxLoadsAndExchanges : Prop :=
  ∀ (d r : Reg) (s : State), (Instr.ldisx d r).opcode = 0x0d ∧
    ∃ t, exec (.ldisx d r) s = .next t ∧
      (.ldisx ∉ s.params.implemented → Raises s t 2) ∧
      (.ldisx ∈ s.params.implemented → StoresOnly [d, r] s t ∧
        (d ≠ r → (WordInRam (s.reg r) → (t.reg r).toNat = s.ramWord (s.reg r)) ∧
          (t.reg d).toNat = ((s.reg r).toNat + 2) % 2 ^ 16))

/-- `ddsto` (R137): where implemented, and with different registers, the destination loses 2 and the source is stored at
the new address; where not, IINSTR. A store into `f` that newly sets a bit 9 to 15 clears `H`: the spec's decision D12
(log 16). Addresses are modulo 2^16: D2 (log 20). The write dropped in ROM_RANGE is D6 (log 15). With one register in
both fields the stored word is free, the model's choice (log 9). That a byte for `TXD` while `T` is 0 completes the
store is the model's choice (log 10, against D24); that one for `READY`, the clock counter or an unmapped address
changes nothing is the model's choice after D5 and D7 (log 7). -/
def Obligations.DdstoDecrementsAndStores : Prop :=
  ∀ (d r : Reg) (s : State), s.mem.wf = true → (Instr.ddsto d r).opcode = 0x17 ∧
    ∃ t, exec (.ddsto d r) s = .next t ∧
      (.ddsto ∉ s.params.implemented → Raises s t 2) ∧
      (.ddsto ∈ s.params.implemented → (t.reg d).toNat = ((s.reg d).toNat + 65534) % 2 ^ 16 ∧ RegsSameBut [d] s t ∧
        (d ≠ r → WordStoredAt s t (t.reg d) (s.reg r)) ∧
        (∀ x, x ≠ t.reg d → x ≠ t.reg d + 1 → t.ram x = s.ram x) ∧ CsrsAfterStore s t ∧ t.halted = s.halted ∧
        t.clk = s.clk ∧ t.display = s.display ∧ SameOutside s t ∧
        (t.reg d ≠ Config.kbdAddr → t.reg d ≠ Config.kbdAddr + 1 → t.reg d + 1 ≠ Config.kbdAddr → t.kbd = s.kbd))

/-! ## Conditional families -/

/-- `mvNF` (R150): the sixteen tests of R145 and the move. A store into `f` that newly sets a bit 9 to 15 clears `H`:
the spec's decision D12 (log 16). -/
def Obligations.MvNFMovesIfTrue : Prop :=
  ∀ c ∈ mvFamily, ∀ (d r : Reg) (s : State), c.opcodeFrom 0xc0 d r ∧
    ∃ t, exec (c.instr d r) s = .next t ∧
      (c.holds s → t.reg d = s.reg r ∧ StoresOnly [d] s t) ∧ (¬ c.holds s → t = s)

/-- `ldNF` (R147): a false test does nothing at all. A store into `f` that newly sets a bit 9 to 15 clears `H`: the
spec's decision D12 (log 16). Addresses are modulo 2^16: D2 (log 20). -/
def Obligations.LdNFLoadsIfTrue : Prop :=
  ∀ c ∈ ldFamily, ∀ (d r : Reg) (s : State), c.opcodeFrom 0x90 d r ∧
    ∃ t, exec (c.instr d r) s = .next t ∧
      (c.holds s → (WordInRam (s.reg r) → (t.reg d).toNat = s.ramWord (s.reg r)) ∧ StoresOnly [d] s t) ∧
      (¬ c.holds s → t = s)

/-- `ldNFis` (R148): a true test loads and does not increment, a false one increments and does not load. A store into
`f` that newly sets a bit 9 to 15 clears `H`: the spec's decision D12 (log 16). Addresses are modulo 2^16: D2 (log 20).
-/
def Obligations.LdNFisLoadsOrSkips : Prop :=
  ∀ c ∈ ldisFamily, ∀ (d r : Reg) (s : State), c.opcodeFrom 0xa0 d r ∧
    ∃ t, exec (c.instr d r) s = .next t ∧
      (c.holds s → (WordInRam (s.reg r) → (t.reg d).toNat = s.ramWord (s.reg r)) ∧ StoresOnly [d] s t) ∧
      (¬ c.holds s → (t.reg r).toNat = ((s.reg r).toNat + 2) % 2 ^ 16 ∧ StoresOnly [r] s t)

/-- `exchNF` (R146): where implemented, exchanges if the test is true, else nothing; where not, IINSTR whatever the
test. A store into `f` that newly sets a bit 9 to 15 clears `H`: the spec's decision D12 (log 16). -/
def Obligations.ExchNFExchangesIfTrue : Prop :=
  ∀ c ∈ exchFamily, ∀ (d r : Reg) (s : State), c.opcodeFrom 0x80 d r ∧
    ∃ t, exec (c.instr d r) s = .next t ∧
      (.exchNF ∉ s.params.implemented → Raises s t 2) ∧
      (.exchNF ∈ s.params.implemented →
        (c.holds s → t.reg d = s.reg r ∧ t.reg r = s.reg d ∧ StoresOnly [d, r] s t) ∧ (¬ c.holds s → t = s))

/-- `ldxNFis` (R149): where implemented, a true test loads, increments and exchanges (with different registers as R149
says), a false one increments; where not, IINSTR whatever the test. A store into `f` that newly sets a bit 9 to 15
clears `H`: the spec's decision D12 (log 16). Addresses are modulo 2^16: D2 (log 20). One register in both fields
completes with a free value, the model's choice (log 8). -/
def Obligations.LdxNFisLoadsExchangesOrSkips : Prop :=
  ∀ c ∈ ldxFamily, ∀ (d r : Reg) (s : State), c.opcodeFrom 0xb0 d r ∧
    ∃ t, exec (c.instr d r) s = .next t ∧
      (.ldxNFis ∉ s.params.implemented → Raises s t 2) ∧
      (.ldxNFis ∈ s.params.implemented →
        (c.holds s → StoresOnly [d, r] s t ∧
          (d ≠ r → (WordInRam (s.reg r) → (t.reg r).toNat = s.ramWord (s.reg r)) ∧
            (t.reg d).toNat = ((s.reg r).toNat + 2) % 2 ^ 16)) ∧
        (¬ c.holds s → (t.reg r).toNat = ((s.reg r).toNat + 2) % 2 ^ 16 ∧ StoresOnly [r] s t))

/-! ## Computational instructions -/

/-- `add` (R166): value, carry out of bit 15, and `o` exactly when the signed sum is out of range (R163). A store into
`f` that newly sets a bit 9 to 15 clears `H`: the spec's decision D12 (log 16). -/
def Obligations.AddResult : Prop :=
  ∀ (d r : Reg) (s : State), (Instr.add d r).opcode = 0x01 ∧
    ∃ t v, exec (.add d r) s = .next t ∧ v.toNat = ((s.reg d).toNat + (s.reg r).toNat) % 2 ^ 16 ∧
      Computes s t d v (v = 0) (2 ^ 16 ≤ (s.reg d).toNat + (s.reg r).toNat) (v.getLsbD 15 = true)
        ((s.reg d).toInt + (s.reg r).toInt < -32768 ∨ 32767 < (s.reg d).toInt + (s.reg r).toInt)

/-- `sub` (R167): value, borrow, and `o` exactly when the signed difference is out of range (R163). A store into `f`
that newly sets a bit 9 to 15 clears `H`: the spec's decision D12 (log 16). -/
def Obligations.SubResult : Prop :=
  ∀ (d r : Reg) (s : State), (Instr.sub d r).opcode = 0x18 ∧
    ∃ t v, exec (.sub d r) s = .next t ∧ v.toNat = ((s.reg d).toNat + 2 ^ 16 - (s.reg r).toNat) % 2 ^ 16 ∧
      Computes s t d v (v = 0) ((s.reg d).toNat < (s.reg r).toNat) (v.getLsbD 15 = true)
        ((s.reg d).toInt - (s.reg r).toInt < -32768 ∨ 32767 < (s.reg d).toInt - (s.reg r).toInt)

/-- `cmps` and `cmpu` (R168, R169): the truth values of the three relations and `o` = 0; no register but `f` changes,
and `f` is written also when it is the first operand. That the flags are written also when `f` is the first operand is
D9 (log 26). -/
def Obligations.CompareResult : Prop :=
  ∀ (d r : Reg) (s : State), (Instr.cmps d r).opcode = 0x1b ∧ (Instr.cmpu d r).opcode = 0x19 ∧
    (∃ t, exec (.cmps d r) s = .next t ∧
      FlagsSay t (s.reg d = s.reg r) ((s.reg d).toInt ≤ (s.reg r).toInt) ((s.reg d).toInt < (s.reg r).toInt) False ∧
      OtherFlagBitsSame s t ∧ RegsSameBut [.f] s t ∧ t.csrs = s.csrs ∧ SameElsewhere s t) ∧
    (∃ t, exec (.cmpu d r) s = .next t ∧
      FlagsSay t (s.reg d = s.reg r) ((s.reg d).toNat ≤ (s.reg r).toNat) ((s.reg d).toNat < (s.reg r).toNat) False ∧
      OtherFlagBitsSame s t ∧ RegsSameBut [.f] s t ∧ t.csrs = s.csrs ∧ SameElsewhere s t)

/-- `and`, `or`, `xor`, `not`, `rev` (R170 to R174), bit by bit; `c` and `o` are 0. A store into `f` that newly sets a
bit 9 to 15 clears `H`: the spec's decision D12 (log 16). -/
def Obligations.LogicResult : Prop :=
  ∀ (d r : Reg) (s : State),
    (Instr.and d r).opcode = 0x02 ∧ (Instr.or d r).opcode = 0x11 ∧ (Instr.xor d r).opcode = 0x1a ∧
    (Instr.not d r).opcode = 0x10 ∧ (Instr.rev d r).opcode = 0x1d ∧
    (∃ t v, exec (.and d r) s = .next t ∧ (∀ j, v.getLsbD j = ((s.reg d).getLsbD j && (s.reg r).getLsbD j)) ∧
      Computes s t d v (v = 0) False (v.getLsbD 15 = true) False) ∧
    (∃ t v, exec (.or d r) s = .next t ∧ (∀ j, v.getLsbD j = ((s.reg d).getLsbD j || (s.reg r).getLsbD j)) ∧
      Computes s t d v (v = 0) False (v.getLsbD 15 = true) False) ∧
    (∃ t v, exec (.xor d r) s = .next t ∧ (∀ j, v.getLsbD j = ((s.reg d).getLsbD j != (s.reg r).getLsbD j)) ∧
      Computes s t d v (v = 0) False (v.getLsbD 15 = true) False) ∧
    (∃ t v, exec (.not d r) s = .next t ∧ (∀ j, j < 16 → v.getLsbD j = !(s.reg r).getLsbD j) ∧
      Computes s t d v (v = 0) False (v.getLsbD 15 = true) False) ∧
    (∃ t v, exec (.rev d r) s = .next t ∧ (∀ j, j < 16 → v.getLsbD j = (s.reg r).getLsbD (15 - j)) ∧
      Computes s t d v (v = 0) False (v.getLsbD 15 = true) False)

/-- `shl` (R175): `c` is the highest bit for a shift by 1 and some bit otherwise (the value is open, log 6). A store
into `f` that newly sets a bit 9 to 15 clears `H`: the spec's decision D12 (log 16). Otherwise `c` is free (log 6). -/
def Obligations.ShlResult : Prop :=
  ∀ (d r : Reg) (s : State), (Instr.shl d r).opcode = 0x12 ∧
    ∃ t v c, exec (.shl d r) s = .next t ∧ v.toNat = (s.reg d).toNat * 2 ^ ((s.reg r).toNat % 16) % 2 ^ 16 ∧
      ((s.reg r).toNat % 16 = 1 → c = (s.reg d).getLsbD 15) ∧
      Computes s t d v (v = 0) (c = true) (v.getLsbD 15 = true) (v.getLsbD 15 ≠ (s.reg d).getLsbD 15)

/-- `shr` (R176): `c` is the lowest bit for a shift by 1 and some bit otherwise (the value is open, log 6). A store into
`f` that newly sets a bit 9 to 15 clears `H`: the spec's decision D12 (log 16). Otherwise `c` is free (log 6). -/
def Obligations.ShrResult : Prop :=
  ∀ (d r : Reg) (s : State), (Instr.shr d r).opcode = 0x13 ∧
    ∃ t v c, exec (.shr d r) s = .next t ∧ v.toNat = (s.reg d).toNat / 2 ^ ((s.reg r).toNat % 16) ∧
      ((s.reg r).toNat % 16 = 1 → c = (s.reg d).getLsbD 0) ∧
      Computes s t d v (v = 0) (c = true) (v.getLsbD 15 = true) (v.getLsbD 15 ≠ (s.reg d).getLsbD 15)

/-- `shra` (R177): the quotient rounded down; `c` open unless shifting by 1; `o` 0 for a shift by 0, "the value is
0xffff" for a shift by 1, open otherwise (log 6). A store into `f` that newly sets a bit 9 to 15 clears `H`: the spec's
decision D12 (log 16). The case of `o` for a shift by 1 is the spec's resolution C10 (log 27). -/
def Obligations.ShraResult : Prop :=
  ∀ (d r : Reg) (s : State), (Instr.shra d r).opcode = 0x14 ∧
    ∃ t v c o, exec (.shra d r) s = .next t ∧ v.toInt = (s.reg d).toInt / 2 ^ ((s.reg r).toNat % 16) ∧
      ((s.reg r).toNat % 16 = 1 → c = (s.reg d).getLsbD 0) ∧
      ((s.reg r).toNat % 16 = 0 → o = false) ∧ ((s.reg r).toNat % 16 = 1 → (o = true ↔ s.reg d = 0xffff)) ∧
      Computes s t d v (v = 0) (c = true) (v.getLsbD 15 = true) (o = true)

/-- `inc1`, `inc2`, `dec1`, `dec2` (R178 to R181), with `c` and `o` as the source's parentheses give them, by the
result. A store into `f` that newly sets a bit 9 to 15 clears `H`: the spec's decision D12 (log 16). -/
def Obligations.IncDecResult : Prop :=
  ∀ (d r : Reg) (s : State),
    (Instr.inc1 d r).opcode = 0x08 ∧ (Instr.inc2 d r).opcode = 0x09 ∧ (Instr.dec1 d r).opcode = 0x05 ∧
    (Instr.dec2 d r).opcode = 0x06 ∧
    (∃ t v, exec (.inc1 d r) s = .next t ∧ v.toNat = ((s.reg r).toNat + 1) % 2 ^ 16 ∧
      Computes s t d v (v = 0) (v = 0) (v.getLsbD 15 = true) (v = 0x8000)) ∧
    (∃ t v, exec (.inc2 d r) s = .next t ∧ v.toNat = ((s.reg r).toNat + 2) % 2 ^ 16 ∧
      Computes s t d v (v = 0) (v = 0 ∨ v = 1) (v.getLsbD 15 = true) (v = 0x8000 ∨ v = 0x8001)) ∧
    (∃ t v, exec (.dec1 d r) s = .next t ∧ v.toNat = ((s.reg r).toNat + 65535) % 2 ^ 16 ∧
      Computes s t d v (v = 0) (v = 0xffff) (v.getLsbD 15 = true) (v = 0x7fff)) ∧
    (∃ t v, exec (.dec2 d r) s = .next t ∧ v.toNat = ((s.reg r).toNat + 65534) % 2 ^ 16 ∧
      Computes s t d v (v = 0) (v = 0xffff ∨ v = 0xfffe) (v.getLsbD 15 = true) (v = 0x7fff ∨ v = 0x7ffe))

/-- `neg` (R182): where implemented, the two's complement; where not, IINSTR. A store into `f` that newly sets a bit 9
to 15 clears `H`: the spec's decision D12 (log 16). -/
def Obligations.NegResult : Prop :=
  ∀ (d r : Reg) (s : State), (Instr.neg d r).opcode = 0x0f ∧
    ∃ t, exec (.neg d r) s = .next t ∧
      (.neg ∉ s.params.implemented → Raises s t 2) ∧
      (.neg ∈ s.params.implemented → ∃ v : Word, v.toNat = (2 ^ 16 - (s.reg r).toNat) % 2 ^ 16 ∧
        Computes s t d v (v = 0) (v = 0) (v.getLsbD 15 = true) (v = 0x8000))

/-- `mulss`, `mulsu`, `mulus` (R190 to R193): where implemented and with different registers, the two halves are the
32-bit pattern of the exact product; the flags are R191's; where not implemented, IINSTR. A store into `f` that newly
sets a bit 9 to 15 clears `H`: the spec's decision D12 (log 16). One register in both fields completes with a free
value, the model's choice (log 8). That `f` as the source register overrides the flags is D10 (log 26). -/
def Obligations.SignedMultiplyResult : Prop :=
  ∀ (d r : Reg) (s : State),
    ∀ x ∈ [(OptionalInstr.mulss, Instr.mulss d r, (0x1e : Byte), (s.reg d).toInt * (s.reg r).toInt),
        (OptionalInstr.mulsu, Instr.mulsu d r, 0x1f, (s.reg d).toInt * ((s.reg r).toNat : Int)),
        (OptionalInstr.mulus, Instr.mulus d r, 0x20, ((s.reg d).toNat : Int) * (s.reg r).toInt)],
      x.2.1.opcode = x.2.2.1 ∧
      ∃ t, exec x.2.1 s = .next t ∧ (x.1 ∉ s.params.implemented → Raises s t 2) ∧
        (x.1 ∈ s.params.implemented →
          (d ≠ r → ∃ lo hi : Word, t.reg d = lo ∧ t.reg r = hi ∧ (hi ++ lo).toInt = x.2.2.2 ∧
            (d ≠ .f → r ≠ .f → OtherFlagBitsSame s t ∧
              FlagsSay t (x.2.2.2 = 0) (¬(if 0 ≤ x.2.2.2 then hi = 0 else hi = 0xffff)) (hi.getLsbD 15 = true)
                (x.2.2.2 < -32768 ∨ 32767 < x.2.2.2))) ∧
          RegsSameBut [d, r, .f] s t ∧ CsrsAfterStore s t ∧ SameElsewhere s t)

/-- `muluu` (R194): where implemented and with different registers, the two halves are the exact unsigned product; `s`
is 0 and `o` tests the signed 16-bit range; where not implemented, IINSTR. A store into `f` that newly sets a bit 9 to
15 clears `H`: the spec's decision D12 (log 16). One register in both fields completes with a free value, the model's
choice (log 8). That `f` as the source register overrides the flags is D10 (log 26). -/
def Obligations.UnsignedMultiplyResult : Prop :=
  ∀ (d r : Reg) (s : State), (Instr.muluu d r).opcode = 0x21 ∧
    ∃ t, exec (.muluu d r) s = .next t ∧ (.muluu ∉ s.params.implemented → Raises s t 2) ∧
      (.muluu ∈ s.params.implemented →
        (d ≠ r → ∃ lo hi : Word, t.reg d = lo ∧ t.reg r = hi ∧
          (hi ++ lo).toNat = (s.reg d).toNat * (s.reg r).toNat ∧
          (d ≠ .f → r ≠ .f → OtherFlagBitsSame s t ∧
            FlagsSay t ((s.reg d).toNat * (s.reg r).toNat = 0) (hi ≠ 0) False
              (32767 < (s.reg d).toNat * (s.reg r).toNat))) ∧
        RegsSameBut [d, r, .f] s t ∧ CsrsAfterStore s t ∧ SameElsewhere s t)

/-! ## Exceptions and interrupts -/

/-- `ill` (R200) raises IZERO for every register field (R231). That the exception writes `H` is the spec's decision D12
(log 16). -/
def Obligations.IllRaisesIzero : Prop :=
  ∀ (d r : Reg) (s : State), (Instr.ill d r).opcode = 0x00 ∧ ∃ t, exec (.ill d r) s = .next t ∧ Raises s t 1

/-- Every opcode byte that no list assigns raises IINSTR, whatever the register byte (R203, R102). That the exception
writes `H` is the spec's decision D12 (log 16). -/
def Obligations.UnassignedOpcodesRaiseIinstr : Prop :=
  ∀ (op ds : Byte) (s : State),
    (0x22 ≤ op.toNat ∧ op.toNat ≤ 0x7f) ∨ (0xd0 ≤ op.toNat ∧ op.toNat ≤ 0xff) →
    ∃ t, exec (decodeInstr op ds) s = .next t ∧ Raises s t 2

/-- An optional instruction that the hardware does not implement raises IINSTR and performs none of its effects (R5,
R203). That the exception writes `H` is the spec's decision D12 (log 16). -/
def Obligations.UnimplementedRaisesIinstr : Prop :=
  ∀ (o : OptionalInstr) (i : Instr) (s : State), IsOptional o i → o ∉ s.params.implemented →
    ∃ t, exec i s = .next t ∧ Raises s t 2

/-- `reti` (R201): `ie` set, `pc` from `ia`, `ia` from `csr1`, nothing else, whatever its fields. -/
def Obligations.RetiReturns : Prop :=
  ∀ (d r : Reg) (s : State), (Instr.reti d r).opcode = 0x1c ∧
    ∃ t, exec (.reti d r) s = .next t ∧ t.ie = true ∧ (∀ j, j ≠ 8 → t.f.getLsbD j = s.f.getLsbD j) ∧
      t.pc = s.reg .ia ∧ t.reg .ia = s.csrs.csr1 ∧ RegsSameBut [.f, .pc, .ia] s t ∧ t.csrs = s.csrs ∧
      SameElsewhere s t

/-- With a bit 9 to 15 of `f` still set at the return, the test before the next instruction enters the handler again:
the return address is back in `ia`, the handler address from `csr1` in `pc`, `ie` cleared (R252). -/
def Obligations.PendingBitReentersAfterReti : Prop :=
  ∀ (d r : Reg) (s : State) (k : Nat), 9 ≤ k → k ≤ 15 → s.f.getLsbD k = true →
    ∃ t, exec (.reti d r) s = .next t ∧ t.testInterrupts.pc = s.csrs.csr1 ∧ t.testInterrupts.reg .ia = s.reg .ia ∧
      t.testInterrupts.ie = false ∧ t.testInterrupts.f.getLsbD k = true

/-- With interrupts enabled, every instruction that raises a hardware exception (`ill`, an opcode in no list, an
optional one that the hardware does not implement) is followed by the handler: the address the handler finds in `ia` is
that of the instruction after it, and the handler runs with `ie` = 0 and `exc` = 1 (R200, R203, R247, R248). The saved
address is the spec's decision D14 (log 31). -/
def Obligations.ExceptionEntersHandlerNext : Prop :=
  ∀ (i : Instr) (s : State), RaisesException s.params i → s.ie = true →
    ∃ t, exec i s = .next t ∧ t.testInterrupts.pc = s.reg .ia ∧ t.testInterrupts.reg .ia = s.pc ∧
      t.testInterrupts.ie = false ∧ t.testInterrupts.exc = true ∧ t.testInterrupts.halted = s.halted

/-- A store into the two bytes that follow it is what the next fetch reads: fetch is coherent (R83, D19; the absence of
a prefetch is the model's choice, log 21). -/
def Obligations.StoreIsSeenByNextFetch : Prop :=
  ∀ (d r : Reg) (s : State), s.mem.wf = true → s.reg d = s.pc → WordInRam s.pc → s.params.romRange = none →
    ∃ t, exec (.sto d r) s = .next t ∧
      t.fetch.1 = decodeInstr ((s.reg r).extractLsb' 0 8) ((s.reg r).extractLsb' 8 8) ∧ t.fetch.2.pc = s.pc + 2

/-! ## Events -/

/-- A tick of the system clock (R257, R258, R238): the counter advances modulo 2^16, `iclk` is set whatever `ie` is, `H`
becomes 1, REASON and everything else stay. The clause on `H` is D12 (log 16); that a tick falls between steps is D11
(log 13). -/
def Obligations.ClockTickCountsAndInterrupts : Prop :=
  ∀ s : State, ∃ t, applyEvent .clockTick s = .next t ∧ t.clk.toNat = (s.clk.toNat + 1) % 2 ^ 16 ∧
    t.f.getLsbD 10 = true ∧ (∀ j, j ≠ 10 → t.f.getLsbD j = s.f.getLsbD j) ∧ RegsSameBut [.f] s t ∧
    t.csrs.csr0.getLsbD 8 = true ∧ SameCsrsButH s t ∧ t.halted = s.halted ∧ t.mem = s.mem ∧ t.kbd = s.kbd ∧
    t.display = s.display ∧ SameOutside s t

/-- The two keyboard interrupts (R262, R263, R264): a byte received while `R` is 0, a transmission completed while `T`
is 0. The clause on `H` is D12 (log 16); that an event falls between steps is D11 (log 13). -/
def Obligations.KeyboardEventsInterrupt : Prop :=
  ∀ s : State,
    (∀ b, s.kbd.received = false → ∃ t, applyEvent (.keyReceived b) s = .next t ∧
      t.kbd = { s.kbd with rxd := b, received := true } ∧ t.f.getLsbD 11 = true ∧
      (∀ j, j ≠ 11 → t.f.getLsbD j = s.f.getLsbD j) ∧ RegsSameBut [.f] s t ∧ t.csrs.csr0.getLsbD 8 = true ∧
      SameCsrsButH s t ∧ t.halted = s.halted ∧ t.mem = s.mem ∧ t.clk = s.clk ∧ t.display = s.display ∧
      SameOutside s t) ∧
    (s.kbd.ready = false → ∃ t, applyEvent .keySent s = .next t ∧
      t.kbd = { s.kbd with ready := true } ∧ t.f.getLsbD 11 = true ∧
      (∀ j, j ≠ 11 → t.f.getLsbD j = s.f.getLsbD j) ∧ RegsSameBut [.f] s t ∧ t.csrs.csr0.getLsbD 8 = true ∧
      SameCsrsButH s t ∧ t.halted = s.halted ∧ t.mem = s.mem ∧ t.clk = s.clk ∧ t.display = s.display ∧
      SameOutside s t)

/-- The host sets a register (R273); a value of `f` with bit 9 clear ends a halt, any other leaves the halt as it is
(R249). That `H` stays is the model's choice (log 23). -/
def Obligations.HostSetsRegister : Prop :=
  ∀ (s : State) (r : Reg) (v : Word), ∃ t, applyEvent (.cdi (.setReg r v)) s = .next t ∧ t.reg r = v ∧
    RegsSameBut [r] s t ∧ (r = .f ∧ v.getLsbD 9 = false → t.halted = false) ∧
    (¬(r = .f ∧ v.getLsbD 9 = false) → t.halted = s.halted) ∧ t.csrs = s.csrs ∧ SameRam s t ∧ SameDevices s t ∧
    SameOutside s t

/-- A reset that is not a power-up (R280): every register 0, not halted; RAM kept (R283, D16), `READY.T` 1 (R285).
Running is D17 (log 19), the kept RAM D16 (log 1). -/
def Obligations.ResetClearsRegisters : Prop :=
  ∀ s : State, ∃ t, applyEvent .reset s = .next t ∧ (∀ r, t.reg r = 0) ∧ t.halted = false ∧ t.run = .running ∧
    t.mem = s.mem ∧ t.kbd.ready = true ∧ (∀ j, 9 ≤ j → t.csrs.csr0.getLsbD j = false) ∧ t.params = s.params

/-- The two ways a program gets into RAM (R283, R288). The debugger's `load` of a file that names start address `a` (R274,
R277, R114): byte `k` of the contents is then at `a + k`, whatever ROM_RANGE says (R76, D6), and nothing else has
changed. Power-up with a configured image: byte `k` of it is at its start address plus `k`, the other bytes of RAM are
whatever they are (D16), and all else is as after reset. That ROM_RANGE does not bind the CDI is D6 (log 15). -/
def Obligations.LoadAndConfigurationFillRam : Prop :=
  (∀ (s : State) (file : Text) (a : Word) (bs : List Byte), s.mem.wf = true → splitBin file = some (a, bs) →
    a.toNat + bs.length ≤ 30000 →
    ∃ t, s.debug (.load file none) = .next t ∧ (∀ k b, bs[k]? = some b → t.mem.read (a.toNat + k) = b) ∧
      (∀ x, x < a.toNat ∨ a.toNat + bs.length ≤ x → t.mem.read x = s.mem.read x) ∧ StoresToMemoryOnly s t ∧
      t.kbd = s.kbd) ∧
  (∀ (build : Params) (a : Word) (bs : List Byte) (others : Memory), others.wf = true → a.toNat + bs.length ≤ 30000 →
    let t := State.powerUp build (a, bs) others
    (∀ k b, bs[k]? = some b → t.mem.read (a.toNat + k) = b) ∧
    (∀ x, x < a.toNat ∨ a.toNat + bs.length ≤ x → t.mem.read x = others.read x) ∧
    t = { State.reset with params := build, mem := t.mem })

/-- What the screen shows (R266 to R269). Each logical pixel has the foreground colour of its block's attribute byte
where its bit of the bitmap is 1 and the background colour where it is 0, exchanged while a blinking block is in its
exchanged phase; the border has the colour of its byte; both for bytes whose reserved bits are 0, the colours being free
otherwise (log 24). Each logical pixel takes two by two pixels of one 512 by 384 part of the screen, at one place, and
the border the rest; the place is open (log 24). The whole depends on the 6914 bytes of the video memory and the
display's own state alone. The attributes' order is R267's derived one (log 24). -/
def Obligations.PictureShowsVideoMemory : Prop :=
  (∀ (s : State) (x : Fin 256) (y : Fin 192),
    let bit := (s.mem.read (0x5a00 + 32 * y.val + x.val / 8)).getLsbD (x.val % 8)
    let a := s.mem.read (0x5a00 + 6144 + 32 * (y.val / 8) + x.val / 8)
    let exchanged := a.getLsbD 7 = true ∧ s.mem.read 0x7501 ≠ 0 ∧ s.display.phase = true
    a.getLsbD 3 = false →
      (((bit = true ∧ ¬ exchanged) ∨ (bit = false ∧ exchanged)) →
        s.pixel x y = { red := a.getLsbD 6, green := a.getLsbD 5, blue := a.getLsbD 4 }) ∧
      (((bit = false ∧ ¬ exchanged) ∨ (bit = true ∧ exchanged)) →
        s.pixel x y = { red := a.getLsbD 2, green := a.getLsbD 1, blue := a.getLsbD 0 })) ∧
  (∀ s : State, let b := s.mem.read 0x7500
    b.toNat < 8 → s.border = { red := b.getLsbD 2, green := b.getLsbD 1, blue := b.getLsbD 0 }) ∧
  (∃ left top, left ≤ 128 ∧ top ≤ 96 ∧ ∀ (s : State) (x : Fin 640) (y : Fin 480),
    (∀ (u : Fin 256) (v : Fin 192) (i j : Fin 2), x.val = left + 2 * u.val + i.val → y.val = top + 2 * v.val + j.val →
      s.screen x y = s.pixel u v) ∧
    (x.val < left ∨ left + 512 ≤ x.val ∨ y.val < top ∨ top + 384 ≤ y.val → s.screen x y = s.border)) ∧
  (∀ s t : State, (∀ n, n < 6914 → t.mem.read (0x5a00 + n) = s.mem.read (0x5a00 + n)) → t.display = s.display →
    (∀ x y, t.pixel x y = s.pixel x y) ∧ t.border = s.border ∧ ∀ x y, t.screen x y = s.screen x y)
end

