-- ==== Sys2Proof/Laws/Bits.lean ====
section
/-! SUPPORT. The bits of words and of the flag register. -/

namespace Sys2Proof.Machine

/-- The bits of a word with one bit replaced. -/
theorem withBit_getLsbD (v : Word) (i j : Nat) (b : Bool) (hi : i < 16) :
    (withBit v i b).getLsbD j = if j = i then b else v.getLsbD j := by
  unfold withBit
  by_cases hj : j < 16
  · cases b <;> by_cases h : j = i
    · subst h; simp [hj]
    · rcases Nat.lt_or_ge j i with h1 | h1
      · simp [hj, h, h1]
      · simp [hj, h, Nat.not_lt.mpr h1, show j - i ≠ 0 by omega]
    · subst h; simp [hj]
    · rcases Nat.lt_or_ge j i with h1 | h1
      · simp [h, h1]
      · simp [h, Nat.not_lt.mpr h1, show j - i ≠ 0 by omega]
  · have hne : j ≠ i := by omega
    have hz : v.getLsbD j = false := BitVec.getLsbD_of_ge v j (by omega)
    simp only [hne, if_false, hz]
    exact BitVec.getLsbD_of_ge _ j (by omega)

/-- Replacing a bit by a value makes it read that value. -/
theorem withBit_same (v : Word) (i : Nat) (b : Bool) (hi : i < 16) : (withBit v i b).getLsbD i = b := by
  rw [withBit_getLsbD v i i b hi, if_pos rfl]

/-- Replacing a bit leaves every other bit alone. -/
theorem withBit_of_ne (v : Word) (i j : Nat) (b : Bool) (hi : i < 16) (h : j ≠ i) :
    (withBit v i b).getLsbD j = v.getLsbD j := by
  rw [withBit_getLsbD v i j b hi, if_neg h]

/-- The bits of the flag register after the four flags have been written (R10, R30). -/
theorem flagWord_getLsbD (f : Word) (q : ZCSO) (j : Nat) :
    (flagWord f q).getLsbD j =
      if j = 7 then q.o else if j = 6 then q.s else if j = 5 then q.c else if j = 4 then q.z else f.getLsbD j := by
  unfold flagWord
  rw [withBit_getLsbD _ 7 j _ (by decide), withBit_getLsbD _ 6 j _ (by decide),
    withBit_getLsbD _ 5 j _ (by decide), withBit_getLsbD _ 4 j _ (by decide)]

/-- Writing the flags leaves bits 8 to 15 of `f` alone, so no exception or interrupt is raised or withdrawn. -/
theorem flagWord_high (f : Word) (q : ZCSO) (j : Nat) (h : 8 ≤ j) :
    (flagWord f q).getLsbD j = f.getLsbD j := by
  rw [flagWord_getLsbD, if_neg (by omega), if_neg (by omega), if_neg (by omega), if_neg (by omega)]

@[simp] theorem lowByte_wordOf (hi lo : Byte) : lowByte (wordOf hi lo) = lo := by
  apply BitVec.eq_of_getLsbD_eq
  intro i hi
  simp only [lowByte, wordOf, BitVec.getLsbD_extractLsb', BitVec.getLsbD_append]
  simp [hi]

@[simp] theorem highByte_wordOf (hi lo : Byte) : highByte (wordOf hi lo) = hi := by
  apply BitVec.eq_of_getLsbD_eq
  intro i hi
  simp only [highByte, wordOf, BitVec.getLsbD_extractLsb', BitVec.getLsbD_append]
  simp [hi]

/-- A word is the word of its two bytes. -/
@[simp] theorem wordOf_high_low (v : Word) : wordOf (highByte v) (lowByte v) = v := by
  apply BitVec.eq_of_getLsbD_eq
  intro i hi
  simp only [wordOf, highByte, lowByte, BitVec.getLsbD_append, BitVec.getLsbD_extractLsb']
  by_cases h : i < 8
  · simp [h]
  · simp [h, show i - 8 < 8 by omega, show 8 + (i - 8) = i by omega]

end Sys2Proof.Machine
end

