-- ==== Sys2Proof/Laws/Memory.lean ====
section
/-! SUPPORT. RAM: a read after a write, and that every memory operation keeps the canonical form. -/

namespace Sys2Proof.Machine

/-- Widening the bound below the entries keeps the canonical form. -/
theorem Memory.wfFrom_mono (m : Memory) (lo lo' : Nat) (h : lo' ≤ lo) (hw : Memory.wfFrom lo m = true) :
    Memory.wfFrom lo' m = true := by
  cases m with
  | nil => rfl
  | cons c rest =>
    obtain ⟨a, v⟩ := c
    simp only [Memory.wfFrom, Bool.and_eq_true, decide_eq_true_eq] at hw ⊢
    exact ⟨⟨⟨by omega, hw.1.1.2⟩, hw.1.2⟩, hw.2⟩

/-- Below the lowest entry nothing is listed. -/
theorem Memory.read_of_lt (m : Memory) (lo a : Nat) (hw : Memory.wfFrom lo m = true) (h : a < lo) :
    m.read a = Memory.unlisted := by
  induction m generalizing lo with
  | nil => rfl
  | cons c rest ih =>
    obtain ⟨b, v⟩ := c
    simp only [Memory.wfFrom, Bool.and_eq_true, decide_eq_true_eq] at hw
    simp only [Memory.read, if_neg (show a ≠ b by omega)]
    exact ih (b + 1) hw.2 (by omega)

theorem Memory.read_insert (m : Memory) (a b : Nat) (v : Byte) :
    (Memory.insert m a v).read b = if b = a then v else m.read b := by
  induction m with
  | nil => simp [Memory.insert, Memory.read]
  | cons c rest ih =>
    obtain ⟨x, u⟩ := c
    simp only [Memory.insert]
    split
    · simp [Memory.read]
    · split
      · next h => subst h; simp only [Memory.read]; split <;> simp_all
      · next h =>
        simp only [Memory.read, ih]
        by_cases hb : b = x
        · subst hb; simp [Ne.symm h]
        · simp [hb]

theorem Memory.read_erase (m : Memory) (lo a b : Nat) (hw : Memory.wfFrom lo m = true) :
    (Memory.erase m a).read b = if b = a then Memory.unlisted else m.read b := by
  induction m generalizing lo with
  | nil => simp [Memory.erase, Memory.read]
  | cons c rest ih =>
    obtain ⟨x, u⟩ := c
    simp only [Memory.wfFrom, Bool.and_eq_true, decide_eq_true_eq] at hw
    simp only [Memory.erase]
    split
    · next h =>
      subst h
      by_cases hb : b = a
      · subst hb; simp [Memory.read_of_lt rest (b + 1) b hw.2 (by omega)]
      · simp [Memory.read, hb]
    · next h =>
      simp only [Memory.read, ih (x + 1) hw.2]
      by_cases hb : b = x
      · subst hb; simp [Ne.symm h]
      · simp [hb]

/-- A read after a write: the written byte at its address, every other byte as before. -/
theorem Memory.read_write (m : Memory) (a b : Nat) (v : Byte) (hw : m.wf = true) :
    (m.write a v).read b = if b = a then v else m.read b := by
  unfold Memory.write
  split
  · next h => rw [Memory.read_erase m 0 a b hw, h]
  · exact Memory.read_insert m a b v

/-- Erasing keeps the canonical form. -/
theorem Memory.wfFrom_erase (m : Memory) (lo a : Nat) (hw : Memory.wfFrom lo m = true) :
    Memory.wfFrom lo (Memory.erase m a) = true := by
  induction m generalizing lo with
  | nil => rfl
  | cons c rest ih =>
    obtain ⟨x, u⟩ := c
    have hw' := hw
    simp only [Memory.wfFrom, Bool.and_eq_true, decide_eq_true_eq] at hw
    simp only [Memory.erase]
    split
    · exact Memory.wfFrom_mono rest (x + 1) lo (by omega) hw.2
    · simp only [Memory.wfFrom, Bool.and_eq_true, decide_eq_true_eq]
      exact ⟨hw.1, ih (x + 1) hw.2⟩

/-- Inserting a RAM byte that differs from what an unlisted address reads as keeps the canonical form. -/
theorem Memory.wfFrom_insert (m : Memory) (lo a : Nat) (v : Byte) (hw : Memory.wfFrom lo m = true)
    (hlo : lo ≤ a) (ha : a ≤ Config.memMax.toNat) (hv : v ≠ Memory.unlisted) :
    Memory.wfFrom lo (Memory.insert m a v) = true := by
  induction m generalizing lo with
  | nil => simp [Memory.insert, Memory.wfFrom, hlo, ha, hv]
  | cons c rest ih =>
    obtain ⟨x, u⟩ := c
    simp only [Memory.wfFrom, Bool.and_eq_true, decide_eq_true_eq, bne_iff_ne] at hw
    simp only [Memory.insert]
    split
    · simp only [Memory.wfFrom, Bool.and_eq_true, decide_eq_true_eq, bne_iff_ne]
      exact ⟨⟨⟨hlo, ha⟩, hv⟩, ⟨⟨by omega, hw.1.1.2⟩, hw.1.2⟩, hw.2⟩
    · split
      · next h =>
        subst h
        simp only [Memory.wfFrom, Bool.and_eq_true, decide_eq_true_eq, bne_iff_ne]
        exact ⟨⟨⟨hlo, ha⟩, hv⟩, hw.2⟩
      · simp only [Memory.wfFrom, Bool.and_eq_true, decide_eq_true_eq, bne_iff_ne]
        exact ⟨hw.1, ih (x + 1) hw.2 (by omega)⟩

/-- A write to a RAM address keeps the canonical form. -/
theorem Memory.wf_write (m : Memory) (a : Nat) (v : Byte) (hw : m.wf = true) (ha : a ≤ Config.memMax.toNat) :
    (m.write a v).wf = true := by
  unfold Memory.write
  split
  · exact Memory.wfFrom_erase m 0 a hw
  · next h => exact Memory.wfFrom_insert m 0 a v hw (Nat.zero_le a) ha h

/-- RAM at reset has the canonical form. -/
theorem reset_mem_wf : State.reset.mem.wf = true := rfl

/-- Two canonical memories that read alike are the same list. -/
theorem Memory.ext_of_read (m n : Memory) (lo : Nat) (hm : Memory.wfFrom lo m = true)
    (hn : Memory.wfFrom lo n = true) (h : ∀ a, m.read a = n.read a) : m = n := by
  induction m generalizing n lo with
  | nil =>
    cases n with
    | nil => rfl
    | cons c rest =>
      obtain ⟨x, u⟩ := c
      simp only [Memory.wfFrom, Bool.and_eq_true, decide_eq_true_eq, bne_iff_ne] at hn
      have := h x
      simp [Memory.read] at this
      exact absurd this.symm hn.1.2
  | cons c rest ih =>
    obtain ⟨x, u⟩ := c
    simp only [Memory.wfFrom, Bool.and_eq_true, decide_eq_true_eq, bne_iff_ne] at hm
    cases n with
    | nil =>
      have := h x
      simp [Memory.read] at this
      exact absurd this hm.1.2
    | cons c' rest' =>
      obtain ⟨y, w⟩ := c'
      simp only [Memory.wfFrom, Bool.and_eq_true, decide_eq_true_eq, bne_iff_ne] at hn
      have hxy : x = y := by
        rcases Nat.lt_trichotomy x y with hlt | heq | hgt
        · have hx := h x
          simp only [Memory.read, if_neg (show x ≠ y by omega)] at hx
          rw [Memory.read_of_lt rest' (y + 1) x hn.2 (by omega)] at hx
          exact absurd hx hm.1.2
        · exact heq
        · have hy := h y
          simp only [Memory.read, if_neg (show y ≠ x by omega)] at hy
          rw [Memory.read_of_lt rest (x + 1) y hm.2 (by omega)] at hy
          exact absurd hy.symm hn.1.2
      subst hxy
      have huw : u = w := by
        have := h x
        simpa [Memory.read] using this
      subst huw
      rw [ih rest' (x + 1) hm.2 hn.2]
      intro a
      by_cases hax : a = x
      · subst hax
        rw [Memory.read_of_lt rest (a + 1) a hm.2 (by omega), Memory.read_of_lt rest' (a + 1) a hn.2 (by omega)]
      · have := h a
        simpa [Memory.read, hax] using this

end Sys2Proof.Machine
end

