-- ==== Sys2Proof/Laws/Boot.lean ====
section
/-! SUPPORT. Power-up with a memory image: what RAM then holds, in canonical form, and that all else is as after reset. -/

namespace Sys2Proof.Machine

/-- Filling keeps the canonical form. -/
theorem Memory.wf_fill (bs : List Byte) : ∀ (m : Memory) (a : Nat), m.wf = true → (m.fill a bs).wf = true := by
  induction bs with
  | nil => exact fun _ _ hw => hw
  | cons b bs ih =>
    intro m a hw
    unfold Memory.fill
    split
    · next h => exact Memory.wf_write _ a b (ih m (a + 1) hw) h
    · exact ih m (a + 1) hw

/-- Filling leaves the bytes below `a` and those above the last one filled. -/
theorem Memory.read_fill_outside (bs : List Byte) : ∀ (m : Memory) (a x : Nat), m.wf = true →
    x < a ∨ a + bs.length ≤ x → (m.fill a bs).read x = m.read x := by
  induction bs with
  | nil => exact fun _ _ _ _ _ => rfl
  | cons b bs ih =>
    intro m a x hw hx
    rw [List.length_cons] at hx
    have h := ih m (a + 1) x hw (by omega)
    unfold Memory.fill
    split
    · rw [Memory.read_write _ _ _ _ (Memory.wf_fill bs m (a + 1) hw), if_neg (by omega), h]
    · exact h

/-- Filling puts byte `k` at `a + k`, where RAM has that address. -/
theorem Memory.read_fill_inside (bs : List Byte) : ∀ (m : Memory) (a k : Nat) (b : Byte), m.wf = true →
    bs[k]? = some b → a + k ≤ Config.memMax.toNat → (m.fill a bs).read (a + k) = b := by
  induction bs with
  | nil => intro m a k b _ h; simp at h
  | cons c bs ih =>
    intro m a k b hw h hk
    unfold Memory.fill
    rw [if_pos (by omega), Memory.read_write _ _ _ _ (Memory.wf_fill bs m (a + 1) hw)]
    cases k with
    | zero => rw [if_pos (Nat.add_zero a)]; simpa using h
    | succ k =>
      rw [if_neg (by omega), show a + (k + 1) = a + 1 + k by omega]
      exact ih m (a + 1) k b hw (by simpa using h) (by omega)

@[simp] theorem State.powerUp_regs (p : Params) (i : Word × List Byte) (m : Memory) :
    (State.powerUp p i m).regs = Regs.zero := rfl
@[simp] theorem State.powerUp_mem (p : Params) (i : Word × List Byte) (m : Memory) :
    (State.powerUp p i m).mem = m.fill i.1.toNat i.2 := rfl
@[simp] theorem State.powerUp_params (p : Params) (i : Word × List Byte) (m : Memory) :
    (State.powerUp p i m).params = p := rfl

/-- Reset is power-up of this hardware without an image, the other bytes reading 0. -/
theorem State.powerUp_nil (a : Word) : State.powerUp Config.thisHardware (a, []) [] = State.reset := rfl

end Sys2Proof.Machine
end

