-- ==== Sys2Proof/Laws/State.lean ====
section
/-! SUPPORT. One lemma per field per update of State, and the registers after each update, so that no proof unfolds a
record update. -/

namespace Sys2Proof.Machine

@[simp] theorem State.putReg_regs (s : State) (r : Reg) (v : Word) : (s.putReg r v).regs = s.regs.set r v := rfl
@[simp] theorem State.putReg_csrs (s : State) (r : Reg) (v : Word) : (s.putReg r v).csrs = s.csrs := rfl
@[simp] theorem State.putReg_halted (s : State) (r : Reg) (v : Word) : (s.putReg r v).halted = s.halted := rfl
@[simp] theorem State.putReg_run (s : State) (r : Reg) (v : Word) : (s.putReg r v).run = s.run := rfl
@[simp] theorem State.putReg_mem (s : State) (r : Reg) (v : Word) : (s.putReg r v).mem = s.mem := rfl
@[simp] theorem State.putReg_clk (s : State) (r : Reg) (v : Word) : (s.putReg r v).clk = s.clk := rfl
@[simp] theorem State.putReg_kbd (s : State) (r : Reg) (v : Word) : (s.putReg r v).kbd = s.kbd := rfl
@[simp] theorem State.putReg_display (s : State) (r : Reg) (v : Word) : (s.putReg r v).display = s.display := rfl
@[simp] theorem State.putReg_agenda (s : State) (r : Reg) (v : Word) : (s.putReg r v).agenda = s.agenda := rfl
@[simp] theorem State.putReg_replies (s : State) (r : Reg) (v : Word) : (s.putReg r v).replies = s.replies := rfl
@[simp] theorem State.putReg_params (s : State) (r : Reg) (v : Word) : (s.putReg r v).params = s.params := rfl
@[simp] theorem State.putReg_draws (s : State) (r : Reg) (v : Word) : (s.putReg r v).draws = s.draws := rfl

@[simp] theorem State.putCsr0_regs (s : State) (v : Word) : (s.putCsr0 v).regs = s.regs := rfl
@[simp] theorem State.putCsr0_csrs (s : State) (v : Word) : (s.putCsr0 v).csrs = { s.csrs with csr0 := v } := rfl
@[simp] theorem State.putCsr0_halted (s : State) (v : Word) : (s.putCsr0 v).halted = s.halted := rfl
@[simp] theorem State.putCsr0_run (s : State) (v : Word) : (s.putCsr0 v).run = s.run := rfl
@[simp] theorem State.putCsr0_mem (s : State) (v : Word) : (s.putCsr0 v).mem = s.mem := rfl
@[simp] theorem State.putCsr0_clk (s : State) (v : Word) : (s.putCsr0 v).clk = s.clk := rfl
@[simp] theorem State.putCsr0_kbd (s : State) (v : Word) : (s.putCsr0 v).kbd = s.kbd := rfl
@[simp] theorem State.putCsr0_display (s : State) (v : Word) : (s.putCsr0 v).display = s.display := rfl
@[simp] theorem State.putCsr0_agenda (s : State) (v : Word) : (s.putCsr0 v).agenda = s.agenda := rfl
@[simp] theorem State.putCsr0_replies (s : State) (v : Word) : (s.putCsr0 v).replies = s.replies := rfl
@[simp] theorem State.putCsr0_params (s : State) (v : Word) : (s.putCsr0 v).params = s.params := rfl
@[simp] theorem State.putCsr0_draws (s : State) (v : Word) : (s.putCsr0 v).draws = s.draws := rfl
@[simp] theorem State.putCsr0_reg (s : State) (v : Word) (q : Reg) : (s.putCsr0 v).reg q = s.reg q := rfl
@[simp] theorem State.putCsr0_f (s : State) (v : Word) : (s.putCsr0 v).f = s.f := rfl
@[simp] theorem State.putCsr0_pc (s : State) (v : Word) : (s.putCsr0 v).pc = s.pc := rfl

@[simp] theorem State.putCsrs_regs (s : State) (c : Csrs) : (s.putCsrs c).regs = s.regs := rfl
@[simp] theorem State.putCsrs_csrs (s : State) (c : Csrs) : (s.putCsrs c).csrs = c := rfl
@[simp] theorem State.putCsrs_halted (s : State) (c : Csrs) : (s.putCsrs c).halted = s.halted := rfl
@[simp] theorem State.putCsrs_run (s : State) (c : Csrs) : (s.putCsrs c).run = s.run := rfl
@[simp] theorem State.putCsrs_mem (s : State) (c : Csrs) : (s.putCsrs c).mem = s.mem := rfl
@[simp] theorem State.putCsrs_clk (s : State) (c : Csrs) : (s.putCsrs c).clk = s.clk := rfl
@[simp] theorem State.putCsrs_kbd (s : State) (c : Csrs) : (s.putCsrs c).kbd = s.kbd := rfl
@[simp] theorem State.putCsrs_display (s : State) (c : Csrs) : (s.putCsrs c).display = s.display := rfl
@[simp] theorem State.putCsrs_agenda (s : State) (c : Csrs) : (s.putCsrs c).agenda = s.agenda := rfl
@[simp] theorem State.putCsrs_replies (s : State) (c : Csrs) : (s.putCsrs c).replies = s.replies := rfl
@[simp] theorem State.putCsrs_params (s : State) (c : Csrs) : (s.putCsrs c).params = s.params := rfl
@[simp] theorem State.putCsrs_draws (s : State) (c : Csrs) : (s.putCsrs c).draws = s.draws := rfl
@[simp] theorem State.putCsrs_reg (s : State) (c : Csrs) (q : Reg) : (s.putCsrs c).reg q = s.reg q := rfl
@[simp] theorem State.putCsrs_f (s : State) (c : Csrs) : (s.putCsrs c).f = s.f := rfl
@[simp] theorem State.putCsrs_pc (s : State) (c : Csrs) : (s.putCsrs c).pc = s.pc := rfl

@[simp] theorem State.putHalted_regs (s : State) (b : Bool) : (s.putHalted b).regs = s.regs := rfl
@[simp] theorem State.putHalted_csrs (s : State) (b : Bool) : (s.putHalted b).csrs = s.csrs := rfl
@[simp] theorem State.putHalted_halted (s : State) (b : Bool) : (s.putHalted b).halted = b := rfl
@[simp] theorem State.putHalted_run (s : State) (b : Bool) : (s.putHalted b).run = s.run := rfl
@[simp] theorem State.putHalted_mem (s : State) (b : Bool) : (s.putHalted b).mem = s.mem := rfl
@[simp] theorem State.putHalted_clk (s : State) (b : Bool) : (s.putHalted b).clk = s.clk := rfl
@[simp] theorem State.putHalted_kbd (s : State) (b : Bool) : (s.putHalted b).kbd = s.kbd := rfl
@[simp] theorem State.putHalted_display (s : State) (b : Bool) : (s.putHalted b).display = s.display := rfl
@[simp] theorem State.putHalted_agenda (s : State) (b : Bool) : (s.putHalted b).agenda = s.agenda := rfl
@[simp] theorem State.putHalted_replies (s : State) (b : Bool) : (s.putHalted b).replies = s.replies := rfl
@[simp] theorem State.putHalted_params (s : State) (b : Bool) : (s.putHalted b).params = s.params := rfl
@[simp] theorem State.putHalted_draws (s : State) (b : Bool) : (s.putHalted b).draws = s.draws := rfl
@[simp] theorem State.putHalted_reg (s : State) (b : Bool) (q : Reg) : (s.putHalted b).reg q = s.reg q := rfl
@[simp] theorem State.putHalted_f (s : State) (b : Bool) : (s.putHalted b).f = s.f := rfl
@[simp] theorem State.putHalted_pc (s : State) (b : Bool) : (s.putHalted b).pc = s.pc := rfl

@[simp] theorem State.putRun_regs (s : State) (r : RunState) : (s.putRun r).regs = s.regs := rfl
@[simp] theorem State.putRun_csrs (s : State) (r : RunState) : (s.putRun r).csrs = s.csrs := rfl
@[simp] theorem State.putRun_halted (s : State) (r : RunState) : (s.putRun r).halted = s.halted := rfl
@[simp] theorem State.putRun_run (s : State) (r : RunState) : (s.putRun r).run = r := rfl
@[simp] theorem State.putRun_mem (s : State) (r : RunState) : (s.putRun r).mem = s.mem := rfl
@[simp] theorem State.putRun_clk (s : State) (r : RunState) : (s.putRun r).clk = s.clk := rfl
@[simp] theorem State.putRun_kbd (s : State) (r : RunState) : (s.putRun r).kbd = s.kbd := rfl
@[simp] theorem State.putRun_display (s : State) (r : RunState) : (s.putRun r).display = s.display := rfl
@[simp] theorem State.putRun_agenda (s : State) (r : RunState) : (s.putRun r).agenda = s.agenda := rfl
@[simp] theorem State.putRun_replies (s : State) (r : RunState) : (s.putRun r).replies = s.replies := rfl
@[simp] theorem State.putRun_params (s : State) (r : RunState) : (s.putRun r).params = s.params := rfl
@[simp] theorem State.putRun_draws (s : State) (r : RunState) : (s.putRun r).draws = s.draws := rfl
@[simp] theorem State.putRun_reg (s : State) (r : RunState) (q : Reg) : (s.putRun r).reg q = s.reg q := rfl
@[simp] theorem State.putRun_f (s : State) (r : RunState) : (s.putRun r).f = s.f := rfl
@[simp] theorem State.putRun_pc (s : State) (r : RunState) : (s.putRun r).pc = s.pc := rfl

@[simp] theorem State.putMem_regs (s : State) (m : Memory) : (s.putMem m).regs = s.regs := rfl
@[simp] theorem State.putMem_csrs (s : State) (m : Memory) : (s.putMem m).csrs = s.csrs := rfl
@[simp] theorem State.putMem_halted (s : State) (m : Memory) : (s.putMem m).halted = s.halted := rfl
@[simp] theorem State.putMem_run (s : State) (m : Memory) : (s.putMem m).run = s.run := rfl
@[simp] theorem State.putMem_mem (s : State) (m : Memory) : (s.putMem m).mem = m := rfl
@[simp] theorem State.putMem_clk (s : State) (m : Memory) : (s.putMem m).clk = s.clk := rfl
@[simp] theorem State.putMem_kbd (s : State) (m : Memory) : (s.putMem m).kbd = s.kbd := rfl
@[simp] theorem State.putMem_display (s : State) (m : Memory) : (s.putMem m).display = s.display := rfl
@[simp] theorem State.putMem_agenda (s : State) (m : Memory) : (s.putMem m).agenda = s.agenda := rfl
@[simp] theorem State.putMem_replies (s : State) (m : Memory) : (s.putMem m).replies = s.replies := rfl
@[simp] theorem State.putMem_params (s : State) (m : Memory) : (s.putMem m).params = s.params := rfl
@[simp] theorem State.putMem_draws (s : State) (m : Memory) : (s.putMem m).draws = s.draws := rfl
@[simp] theorem State.putMem_reg (s : State) (m : Memory) (q : Reg) : (s.putMem m).reg q = s.reg q := rfl
@[simp] theorem State.putMem_f (s : State) (m : Memory) : (s.putMem m).f = s.f := rfl
@[simp] theorem State.putMem_pc (s : State) (m : Memory) : (s.putMem m).pc = s.pc := rfl

@[simp] theorem State.putClk_regs (s : State) (v : Word) : (s.putClk v).regs = s.regs := rfl
@[simp] theorem State.putClk_csrs (s : State) (v : Word) : (s.putClk v).csrs = s.csrs := rfl
@[simp] theorem State.putClk_halted (s : State) (v : Word) : (s.putClk v).halted = s.halted := rfl
@[simp] theorem State.putClk_run (s : State) (v : Word) : (s.putClk v).run = s.run := rfl
@[simp] theorem State.putClk_mem (s : State) (v : Word) : (s.putClk v).mem = s.mem := rfl
@[simp] theorem State.putClk_clk (s : State) (v : Word) : (s.putClk v).clk = v := rfl
@[simp] theorem State.putClk_kbd (s : State) (v : Word) : (s.putClk v).kbd = s.kbd := rfl
@[simp] theorem State.putClk_display (s : State) (v : Word) : (s.putClk v).display = s.display := rfl
@[simp] theorem State.putClk_agenda (s : State) (v : Word) : (s.putClk v).agenda = s.agenda := rfl
@[simp] theorem State.putClk_replies (s : State) (v : Word) : (s.putClk v).replies = s.replies := rfl
@[simp] theorem State.putClk_params (s : State) (v : Word) : (s.putClk v).params = s.params := rfl
@[simp] theorem State.putClk_draws (s : State) (v : Word) : (s.putClk v).draws = s.draws := rfl
@[simp] theorem State.putClk_reg (s : State) (v : Word) (q : Reg) : (s.putClk v).reg q = s.reg q := rfl
@[simp] theorem State.putClk_f (s : State) (v : Word) : (s.putClk v).f = s.f := rfl
@[simp] theorem State.putClk_pc (s : State) (v : Word) : (s.putClk v).pc = s.pc := rfl

@[simp] theorem State.putKbd_regs (s : State) (k : Keyboard) : (s.putKbd k).regs = s.regs := rfl
@[simp] theorem State.putKbd_csrs (s : State) (k : Keyboard) : (s.putKbd k).csrs = s.csrs := rfl
@[simp] theorem State.putKbd_halted (s : State) (k : Keyboard) : (s.putKbd k).halted = s.halted := rfl
@[simp] theorem State.putKbd_run (s : State) (k : Keyboard) : (s.putKbd k).run = s.run := rfl
@[simp] theorem State.putKbd_mem (s : State) (k : Keyboard) : (s.putKbd k).mem = s.mem := rfl
@[simp] theorem State.putKbd_clk (s : State) (k : Keyboard) : (s.putKbd k).clk = s.clk := rfl
@[simp] theorem State.putKbd_kbd (s : State) (k : Keyboard) : (s.putKbd k).kbd = k := rfl
@[simp] theorem State.putKbd_display (s : State) (k : Keyboard) : (s.putKbd k).display = s.display := rfl
@[simp] theorem State.putKbd_agenda (s : State) (k : Keyboard) : (s.putKbd k).agenda = s.agenda := rfl
@[simp] theorem State.putKbd_replies (s : State) (k : Keyboard) : (s.putKbd k).replies = s.replies := rfl
@[simp] theorem State.putKbd_params (s : State) (k : Keyboard) : (s.putKbd k).params = s.params := rfl
@[simp] theorem State.putKbd_draws (s : State) (k : Keyboard) : (s.putKbd k).draws = s.draws := rfl
@[simp] theorem State.putKbd_reg (s : State) (k : Keyboard) (q : Reg) : (s.putKbd k).reg q = s.reg q := rfl
@[simp] theorem State.putKbd_f (s : State) (k : Keyboard) : (s.putKbd k).f = s.f := rfl
@[simp] theorem State.putKbd_pc (s : State) (k : Keyboard) : (s.putKbd k).pc = s.pc := rfl

@[simp] theorem State.putDisplay_regs (s : State) (d : Display) : (s.putDisplay d).regs = s.regs := rfl
@[simp] theorem State.putDisplay_csrs (s : State) (d : Display) : (s.putDisplay d).csrs = s.csrs := rfl
@[simp] theorem State.putDisplay_halted (s : State) (d : Display) : (s.putDisplay d).halted = s.halted := rfl
@[simp] theorem State.putDisplay_run (s : State) (d : Display) : (s.putDisplay d).run = s.run := rfl
@[simp] theorem State.putDisplay_mem (s : State) (d : Display) : (s.putDisplay d).mem = s.mem := rfl
@[simp] theorem State.putDisplay_clk (s : State) (d : Display) : (s.putDisplay d).clk = s.clk := rfl
@[simp] theorem State.putDisplay_kbd (s : State) (d : Display) : (s.putDisplay d).kbd = s.kbd := rfl
@[simp] theorem State.putDisplay_display (s : State) (d : Display) : (s.putDisplay d).display = d := rfl
@[simp] theorem State.putDisplay_agenda (s : State) (d : Display) : (s.putDisplay d).agenda = s.agenda := rfl
@[simp] theorem State.putDisplay_replies (s : State) (d : Display) : (s.putDisplay d).replies = s.replies := rfl
@[simp] theorem State.putDisplay_params (s : State) (d : Display) : (s.putDisplay d).params = s.params := rfl
@[simp] theorem State.putDisplay_draws (s : State) (d : Display) : (s.putDisplay d).draws = s.draws := rfl
@[simp] theorem State.putDisplay_reg (s : State) (d : Display) (q : Reg) : (s.putDisplay d).reg q = s.reg q := rfl
@[simp] theorem State.putDisplay_f (s : State) (d : Display) : (s.putDisplay d).f = s.f := rfl
@[simp] theorem State.putDisplay_pc (s : State) (d : Display) : (s.putDisplay d).pc = s.pc := rfl

@[simp] theorem State.putAgenda_regs (s : State) (a : List Turn) : (s.putAgenda a).regs = s.regs := rfl
@[simp] theorem State.putAgenda_csrs (s : State) (a : List Turn) : (s.putAgenda a).csrs = s.csrs := rfl
@[simp] theorem State.putAgenda_halted (s : State) (a : List Turn) : (s.putAgenda a).halted = s.halted := rfl
@[simp] theorem State.putAgenda_run (s : State) (a : List Turn) : (s.putAgenda a).run = s.run := rfl
@[simp] theorem State.putAgenda_mem (s : State) (a : List Turn) : (s.putAgenda a).mem = s.mem := rfl
@[simp] theorem State.putAgenda_clk (s : State) (a : List Turn) : (s.putAgenda a).clk = s.clk := rfl
@[simp] theorem State.putAgenda_kbd (s : State) (a : List Turn) : (s.putAgenda a).kbd = s.kbd := rfl
@[simp] theorem State.putAgenda_display (s : State) (a : List Turn) : (s.putAgenda a).display = s.display := rfl
@[simp] theorem State.putAgenda_agenda (s : State) (a : List Turn) : (s.putAgenda a).agenda = a := rfl
@[simp] theorem State.putAgenda_replies (s : State) (a : List Turn) : (s.putAgenda a).replies = s.replies := rfl
@[simp] theorem State.putAgenda_params (s : State) (a : List Turn) : (s.putAgenda a).params = s.params := rfl
@[simp] theorem State.putAgenda_draws (s : State) (a : List Turn) : (s.putAgenda a).draws = s.draws := rfl
@[simp] theorem State.putAgenda_reg (s : State) (a : List Turn) (q : Reg) : (s.putAgenda a).reg q = s.reg q := rfl
@[simp] theorem State.putAgenda_f (s : State) (a : List Turn) : (s.putAgenda a).f = s.f := rfl
@[simp] theorem State.putAgenda_pc (s : State) (a : List Turn) : (s.putAgenda a).pc = s.pc := rfl

@[simp] theorem State.reply_regs (s : State) (r : CdiReply) : (s.reply r).regs = s.regs := rfl
@[simp] theorem State.reply_csrs (s : State) (r : CdiReply) : (s.reply r).csrs = s.csrs := rfl
@[simp] theorem State.reply_halted (s : State) (r : CdiReply) : (s.reply r).halted = s.halted := rfl
@[simp] theorem State.reply_run (s : State) (r : CdiReply) : (s.reply r).run = s.run := rfl
@[simp] theorem State.reply_mem (s : State) (r : CdiReply) : (s.reply r).mem = s.mem := rfl
@[simp] theorem State.reply_clk (s : State) (r : CdiReply) : (s.reply r).clk = s.clk := rfl
@[simp] theorem State.reply_kbd (s : State) (r : CdiReply) : (s.reply r).kbd = s.kbd := rfl
@[simp] theorem State.reply_display (s : State) (r : CdiReply) : (s.reply r).display = s.display := rfl
@[simp] theorem State.reply_agenda (s : State) (r : CdiReply) : (s.reply r).agenda = s.agenda := rfl
@[simp] theorem State.reply_replies (s : State) (r : CdiReply) : (s.reply r).replies = s.replies ++ [r] := rfl
@[simp] theorem State.reply_params (s : State) (r : CdiReply) : (s.reply r).params = s.params := rfl
@[simp] theorem State.reply_draws (s : State) (r : CdiReply) : (s.reply r).draws = s.draws := rfl
@[simp] theorem State.reply_reg (s : State) (r : CdiReply) (q : Reg) : (s.reply r).reg q = s.reg q := rfl
@[simp] theorem State.reply_f (s : State) (r : CdiReply) : (s.reply r).f = s.f := rfl
@[simp] theorem State.reply_pc (s : State) (r : CdiReply) : (s.reply r).pc = s.pc := rfl

@[simp] theorem State.bump_regs (s : State) (n : Nat) : (s.bump n).regs = s.regs := rfl
@[simp] theorem State.bump_csrs (s : State) (n : Nat) : (s.bump n).csrs = s.csrs := rfl
@[simp] theorem State.bump_halted (s : State) (n : Nat) : (s.bump n).halted = s.halted := rfl
@[simp] theorem State.bump_run (s : State) (n : Nat) : (s.bump n).run = s.run := rfl
@[simp] theorem State.bump_mem (s : State) (n : Nat) : (s.bump n).mem = s.mem := rfl
@[simp] theorem State.bump_clk (s : State) (n : Nat) : (s.bump n).clk = s.clk := rfl
@[simp] theorem State.bump_kbd (s : State) (n : Nat) : (s.bump n).kbd = s.kbd := rfl
@[simp] theorem State.bump_display (s : State) (n : Nat) : (s.bump n).display = s.display := rfl
@[simp] theorem State.bump_agenda (s : State) (n : Nat) : (s.bump n).agenda = s.agenda := rfl
@[simp] theorem State.bump_replies (s : State) (n : Nat) : (s.bump n).replies = s.replies := rfl
@[simp] theorem State.bump_params (s : State) (n : Nat) : (s.bump n).params = s.params := rfl
@[simp] theorem State.bump_draws (s : State) (n : Nat) : (s.bump n).draws = s.draws + n := rfl
@[simp] theorem State.bump_reg (s : State) (n : Nat) (q : Reg) : (s.bump n).reg q = s.reg q := rfl
@[simp] theorem State.bump_f (s : State) (n : Nat) : (s.bump n).f = s.f := rfl
@[simp] theorem State.bump_pc (s : State) (n : Nat) : (s.bump n).pc = s.pc := rfl

/-- A register reads back what was put into it. -/
@[simp] theorem Regs.get_set_same (x : Regs) (r : Reg) (v : Word) : (x.set r v).get r = v := by
  cases r <;> rfl

/-- Putting a value into one register leaves every other register alone. -/
theorem Regs.get_set_of_ne (x : Regs) (r q : Reg) (v : Word) (h : q ≠ r) : (x.set r v).get q = x.get q := by
  cases r <;> cases q <;> first | rfl | exact absurd rfl h

/-- What any register reads after one has been given a value. -/
theorem Regs.get_set (x : Regs) (r q : Reg) (v : Word) :
    (x.set r v).get q = if q = r then v else x.get q := by
  split
  · next h => subst h; exact Regs.get_set_same x q v
  · next h => exact Regs.get_set_of_ne x r q v h

/-- What any register of the machine reads after one has been given a value. -/
theorem State.putReg_reg (s : State) (r q : Reg) (v : Word) :
    (s.putReg r v).reg q = if q = r then v else s.reg q := Regs.get_set s.regs r q v

@[simp] theorem State.putReg_reg_same (s : State) (r : Reg) (v : Word) : (s.putReg r v).reg r = v :=
  Regs.get_set_same s.regs r v

theorem State.putReg_reg_of_ne (s : State) (r q : Reg) (v : Word) (h : q ≠ r) :
    (s.putReg r v).reg q = s.reg q := Regs.get_set_of_ne s.regs r q v h

theorem State.putReg_f (s : State) (r : Reg) (v : Word) :
    (s.putReg r v).f = if Reg.f = r then v else s.f := State.putReg_reg s r .f v

theorem State.putReg_pc (s : State) (r : Reg) (v : Word) :
    (s.putReg r v).pc = if Reg.pc = r then v else s.pc := State.putReg_reg s r .pc v

end Sys2Proof.Machine
end

