-- ==== Sys2Proof/Laws/Ops.lean ====
section
/-! SUPPORT. For each shared operation, what it can do, said once; later proofs cite these and unfold nothing. -/

namespace Sys2Proof.Machine

/-! ## The address map and reads -/

/-- An address reaches RAM exactly when it is at most MEM_MAX (R71). -/
theorem target_ram_iff (a : Word) : target a = .ram ↔ a ≤ Config.memMax := by
  unfold target
  constructor
  · intro h
    by_contra hn
    rw [if_neg hn] at h
    repeat' split at h
    all_goals cases h
  · intro h; rw [if_pos h]

/-- A RAM address as a number. -/
theorem target_ram_toNat (a : Word) (h : target a = .ram) : a.toNat ≤ Config.memMax.toNat :=
  (target_ram_iff a).mp h

/-- A byte read leaves the state as it is, or counts one free value. -/
theorem State.readByte_state (s : State) (a : Word) :
    (s.readByte a).2 = s ∨ (s.readByte a).2 = s.bump 1 := by
  unfold State.readByte State.drawByte
  cases target a <;> simp
  split <;> simp

/-- A byte read in RAM answers the byte there and changes nothing (R68). -/
theorem State.readByte_ram (s : State) (a : Word) (h : a ≤ Config.memMax) :
    s.readByte a = (s.mem.read a.toNat, s) := by
  unfold State.readByte
  rw [(target_ram_iff a).mpr h]

/-- A word read counts at most some free values. -/
theorem State.readWord_state (s : State) (a : Word) : ∃ n, (s.readWord a).2 = s.bump n := by
  have hb : ∀ (u : State) (n : Nat), (u.bump n).bump 1 = u.bump (n + 1) := fun _ _ => rfl
  have h0 : s = s.bump 0 := rfl
  unfold State.readWord
  rcases State.readByte_state s a with h1 | h1 <;>
    rcases State.readByte_state (s.readByte a).2 (a + 1) with h2 | h2
  · exact ⟨0, h2.trans (h1.trans h0)⟩
  · exact ⟨1, h2.trans (congrArg (State.bump · 1) h1)⟩
  · exact ⟨1, h2.trans h1⟩
  · exact ⟨2, h2.trans ((congrArg (State.bump · 1) h1).trans (hb s 1))⟩

/-- A word read in RAM answers the two bytes there, low byte first, and changes nothing (R60, R68). -/
theorem State.readWord_ram (s : State) (a : Word) (h : a ≤ Config.memMax) (h1 : a + 1 ≤ Config.memMax) :
    s.readWord a = (wordOf (s.mem.read (a + 1).toNat) (s.mem.read a.toNat), s) := by
  unfold State.readWord
  simp only [State.readByte_ram s a h, State.readByte_ram s (a + 1) h1]

@[simp] theorem State.readByte_regs (s : State) (a : Word) : (s.readByte a).2.regs = s.regs := by
  rcases State.readByte_state s a with h | h <;> (rw [h]; try rfl)
@[simp] theorem State.readByte_csrs (s : State) (a : Word) : (s.readByte a).2.csrs = s.csrs := by
  rcases State.readByte_state s a with h | h <;> (rw [h]; try rfl)
@[simp] theorem State.readByte_halted (s : State) (a : Word) : (s.readByte a).2.halted = s.halted := by
  rcases State.readByte_state s a with h | h <;> (rw [h]; try rfl)
@[simp] theorem State.readByte_run (s : State) (a : Word) : (s.readByte a).2.run = s.run := by
  rcases State.readByte_state s a with h | h <;> (rw [h]; try rfl)
@[simp] theorem State.readByte_mem (s : State) (a : Word) : (s.readByte a).2.mem = s.mem := by
  rcases State.readByte_state s a with h | h <;> (rw [h]; try rfl)
@[simp] theorem State.readByte_clk (s : State) (a : Word) : (s.readByte a).2.clk = s.clk := by
  rcases State.readByte_state s a with h | h <;> (rw [h]; try rfl)
@[simp] theorem State.readByte_kbd (s : State) (a : Word) : (s.readByte a).2.kbd = s.kbd := by
  rcases State.readByte_state s a with h | h <;> (rw [h]; try rfl)
@[simp] theorem State.readByte_display (s : State) (a : Word) : (s.readByte a).2.display = s.display := by
  rcases State.readByte_state s a with h | h <;> (rw [h]; try rfl)
@[simp] theorem State.readByte_agenda (s : State) (a : Word) : (s.readByte a).2.agenda = s.agenda := by
  rcases State.readByte_state s a with h | h <;> (rw [h]; try rfl)
@[simp] theorem State.readByte_replies (s : State) (a : Word) : (s.readByte a).2.replies = s.replies := by
  rcases State.readByte_state s a with h | h <;> (rw [h]; try rfl)
@[simp] theorem State.readByte_params (s : State) (a : Word) : (s.readByte a).2.params = s.params := by
  rcases State.readByte_state s a with h | h <;> (rw [h]; try rfl)
@[simp] theorem State.readByte_reg (s : State) (a : Word) (q : Reg) : (s.readByte a).2.reg q = s.reg q := by
  rcases State.readByte_state s a with h | h <;> (rw [h]; try rfl)

@[simp] theorem State.readWord_regs (s : State) (a : Word) : (s.readWord a).2.regs = s.regs := by
  obtain ⟨n, h⟩ := State.readWord_state s a
  rw [h]; rfl
@[simp] theorem State.readWord_csrs (s : State) (a : Word) : (s.readWord a).2.csrs = s.csrs := by
  obtain ⟨n, h⟩ := State.readWord_state s a
  rw [h]; rfl
@[simp] theorem State.readWord_halted (s : State) (a : Word) : (s.readWord a).2.halted = s.halted := by
  obtain ⟨n, h⟩ := State.readWord_state s a
  rw [h]; rfl
@[simp] theorem State.readWord_run (s : State) (a : Word) : (s.readWord a).2.run = s.run := by
  obtain ⟨n, h⟩ := State.readWord_state s a
  rw [h]; rfl
@[simp] theorem State.readWord_mem (s : State) (a : Word) : (s.readWord a).2.mem = s.mem := by
  obtain ⟨n, h⟩ := State.readWord_state s a
  rw [h]; rfl
@[simp] theorem State.readWord_clk (s : State) (a : Word) : (s.readWord a).2.clk = s.clk := by
  obtain ⟨n, h⟩ := State.readWord_state s a
  rw [h]; rfl
@[simp] theorem State.readWord_kbd (s : State) (a : Word) : (s.readWord a).2.kbd = s.kbd := by
  obtain ⟨n, h⟩ := State.readWord_state s a
  rw [h]; rfl
@[simp] theorem State.readWord_display (s : State) (a : Word) : (s.readWord a).2.display = s.display := by
  obtain ⟨n, h⟩ := State.readWord_state s a
  rw [h]; rfl
@[simp] theorem State.readWord_agenda (s : State) (a : Word) : (s.readWord a).2.agenda = s.agenda := by
  obtain ⟨n, h⟩ := State.readWord_state s a
  rw [h]; rfl
@[simp] theorem State.readWord_replies (s : State) (a : Word) : (s.readWord a).2.replies = s.replies := by
  obtain ⟨n, h⟩ := State.readWord_state s a
  rw [h]; rfl
@[simp] theorem State.readWord_params (s : State) (a : Word) : (s.readWord a).2.params = s.params := by
  obtain ⟨n, h⟩ := State.readWord_state s a
  rw [h]; rfl
@[simp] theorem State.readWord_reg (s : State) (a : Word) (q : Reg) : (s.readWord a).2.reg q = s.reg q := by
  obtain ⟨n, h⟩ := State.readWord_state s a
  rw [h]; rfl

@[simp] theorem State.drawFlag_regs (s : State) : s.drawFlag.2.regs = s.regs := rfl
@[simp] theorem State.drawFlag_csrs (s : State) : s.drawFlag.2.csrs = s.csrs := rfl
@[simp] theorem State.drawFlag_halted (s : State) : s.drawFlag.2.halted = s.halted := rfl
@[simp] theorem State.drawFlag_run (s : State) : s.drawFlag.2.run = s.run := rfl
@[simp] theorem State.drawFlag_mem (s : State) : s.drawFlag.2.mem = s.mem := rfl
@[simp] theorem State.drawFlag_clk (s : State) : s.drawFlag.2.clk = s.clk := rfl
@[simp] theorem State.drawFlag_kbd (s : State) : s.drawFlag.2.kbd = s.kbd := rfl
@[simp] theorem State.drawFlag_display (s : State) : s.drawFlag.2.display = s.display := rfl
@[simp] theorem State.drawFlag_agenda (s : State) : s.drawFlag.2.agenda = s.agenda := rfl
@[simp] theorem State.drawFlag_replies (s : State) : s.drawFlag.2.replies = s.replies := rfl
@[simp] theorem State.drawFlag_params (s : State) : s.drawFlag.2.params = s.params := rfl
@[simp] theorem State.drawFlag_reg (s : State) (q : Reg) : s.drawFlag.2.reg q = s.reg q := rfl

@[simp] theorem State.drawWord_regs (s : State) : s.drawWord.2.regs = s.regs := rfl
@[simp] theorem State.drawWord_csrs (s : State) : s.drawWord.2.csrs = s.csrs := rfl
@[simp] theorem State.drawWord_halted (s : State) : s.drawWord.2.halted = s.halted := rfl
@[simp] theorem State.drawWord_run (s : State) : s.drawWord.2.run = s.run := rfl
@[simp] theorem State.drawWord_mem (s : State) : s.drawWord.2.mem = s.mem := rfl
@[simp] theorem State.drawWord_clk (s : State) : s.drawWord.2.clk = s.clk := rfl
@[simp] theorem State.drawWord_kbd (s : State) : s.drawWord.2.kbd = s.kbd := rfl
@[simp] theorem State.drawWord_display (s : State) : s.drawWord.2.display = s.display := rfl
@[simp] theorem State.drawWord_agenda (s : State) : s.drawWord.2.agenda = s.agenda := rfl
@[simp] theorem State.drawWord_replies (s : State) : s.drawWord.2.replies = s.replies := rfl
@[simp] theorem State.drawWord_params (s : State) : s.drawWord.2.params = s.params := rfl
@[simp] theorem State.drawWord_reg (s : State) (q : Reg) : s.drawWord.2.reg q = s.reg q := rfl

/-! ## Writes -/

/-- What a byte write can do: nothing, one byte of RAM, a transmission started or disturbed, an acknowledge (R68, R76). -/
theorem State.writeByte_cases (s : State) (m : Master) (a : Word) (b : Byte) :
    s.writeByte m a b = s ∨
    (a ≤ Config.memMax ∧ writeProhibited s.params m a = false ∧
      s.writeByte m a b = s.putMem (s.mem.write a.toNat b)) ∨
    (a = Config.kbdAddr ∧ s.writeByte m a b = s.writeTxd b) ∨
    (a = Config.kbdAddr + 1 ∧ s.writeByte m a b = s.writeRxd) := by
  unfold State.writeByte
  cases hp : writeProhibited s.params m a
  · simp only [Bool.false_eq_true, if_false]
    unfold State.storeByte
    by_cases h0 : a ≤ Config.memMax
    · right; left
      rw [(target_ram_iff a).mpr h0]; exact ⟨h0, trivial, rfl⟩
    · by_cases h1 : a = Config.kbdAddr
      · right; right; left; subst h1; exact ⟨rfl, rfl⟩
      · by_cases h2 : a = Config.kbdAddr + 1
        · right; right; right; subst h2; exact ⟨rfl, rfl⟩
        · left
          have : target a ≠ .ram ∧ target a ≠ .txd ∧ target a ≠ .rxd := by
            unfold target
            rw [if_neg h0, if_neg h1, if_neg h2]
            refine ⟨?_, ?_, ?_⟩ <;> (repeat' split) <;> decide
          cases ht : target a <;> simp_all
  · left; rfl

/-- What a write to `TXD` can do. -/
theorem State.writeTxd_cases (s : State) (b : Byte) :
    (s.writeTxd b = s.putKbd { s.kbd with ready := false, txd := b }) ∨
    (∃ k, s.writeTxd b = (s.putKbd k).bump 2) := by
  unfold State.writeTxd
  split
  · exact .inl rfl
  · exact .inr ⟨_, rfl⟩

@[simp] theorem State.writeByte_regs (s : State) (m : Master) (a : Word) (b : Byte) :
    (s.writeByte m a b).regs = s.regs := by
  rcases State.writeByte_cases s m a b with h | ⟨_, _, h⟩ | ⟨_, h⟩ | ⟨_, h⟩
  · rw [h]
  · rw [h]; rfl
  · rcases State.writeTxd_cases s b with h' | ⟨k, h'⟩ <;> rw [h, h'] <;> rfl
  · rw [h]; rfl
@[simp] theorem State.writeByte_csrs (s : State) (m : Master) (a : Word) (b : Byte) :
    (s.writeByte m a b).csrs = s.csrs := by
  rcases State.writeByte_cases s m a b with h | ⟨_, _, h⟩ | ⟨_, h⟩ | ⟨_, h⟩
  · rw [h]
  · rw [h]; rfl
  · rcases State.writeTxd_cases s b with h' | ⟨k, h'⟩ <;> rw [h, h'] <;> rfl
  · rw [h]; rfl
@[simp] theorem State.writeByte_halted (s : State) (m : Master) (a : Word) (b : Byte) :
    (s.writeByte m a b).halted = s.halted := by
  rcases State.writeByte_cases s m a b with h | ⟨_, _, h⟩ | ⟨_, h⟩ | ⟨_, h⟩
  · rw [h]
  · rw [h]; rfl
  · rcases State.writeTxd_cases s b with h' | ⟨k, h'⟩ <;> rw [h, h'] <;> rfl
  · rw [h]; rfl
@[simp] theorem State.writeByte_run (s : State) (m : Master) (a : Word) (b : Byte) :
    (s.writeByte m a b).run = s.run := by
  rcases State.writeByte_cases s m a b with h | ⟨_, _, h⟩ | ⟨_, h⟩ | ⟨_, h⟩
  · rw [h]
  · rw [h]; rfl
  · rcases State.writeTxd_cases s b with h' | ⟨k, h'⟩ <;> rw [h, h'] <;> rfl
  · rw [h]; rfl
@[simp] theorem State.writeByte_clk (s : State) (m : Master) (a : Word) (b : Byte) :
    (s.writeByte m a b).clk = s.clk := by
  rcases State.writeByte_cases s m a b with h | ⟨_, _, h⟩ | ⟨_, h⟩ | ⟨_, h⟩
  · rw [h]
  · rw [h]; rfl
  · rcases State.writeTxd_cases s b with h' | ⟨k, h'⟩ <;> rw [h, h'] <;> rfl
  · rw [h]; rfl
@[simp] theorem State.writeByte_display (s : State) (m : Master) (a : Word) (b : Byte) :
    (s.writeByte m a b).display = s.display := by
  rcases State.writeByte_cases s m a b with h | ⟨_, _, h⟩ | ⟨_, h⟩ | ⟨_, h⟩
  · rw [h]
  · rw [h]; rfl
  · rcases State.writeTxd_cases s b with h' | ⟨k, h'⟩ <;> rw [h, h'] <;> rfl
  · rw [h]; rfl
@[simp] theorem State.writeByte_agenda (s : State) (m : Master) (a : Word) (b : Byte) :
    (s.writeByte m a b).agenda = s.agenda := by
  rcases State.writeByte_cases s m a b with h | ⟨_, _, h⟩ | ⟨_, h⟩ | ⟨_, h⟩
  · rw [h]
  · rw [h]; rfl
  · rcases State.writeTxd_cases s b with h' | ⟨k, h'⟩ <;> rw [h, h'] <;> rfl
  · rw [h]; rfl
@[simp] theorem State.writeByte_replies (s : State) (m : Master) (a : Word) (b : Byte) :
    (s.writeByte m a b).replies = s.replies := by
  rcases State.writeByte_cases s m a b with h | ⟨_, _, h⟩ | ⟨_, h⟩ | ⟨_, h⟩
  · rw [h]
  · rw [h]; rfl
  · rcases State.writeTxd_cases s b with h' | ⟨k, h'⟩ <;> rw [h, h'] <;> rfl
  · rw [h]; rfl
@[simp] theorem State.writeByte_params (s : State) (m : Master) (a : Word) (b : Byte) :
    (s.writeByte m a b).params = s.params := by
  rcases State.writeByte_cases s m a b with h | ⟨_, _, h⟩ | ⟨_, h⟩ | ⟨_, h⟩
  · rw [h]
  · rw [h]; rfl
  · rcases State.writeTxd_cases s b with h' | ⟨k, h'⟩ <;> rw [h, h'] <;> rfl
  · rw [h]; rfl
@[simp] theorem State.writeByte_reg (s : State) (m : Master) (a : Word) (b : Byte) (q : Reg) :
    (s.writeByte m a b).reg q = s.reg q := by
  simp [State.reg]

@[simp] theorem State.writeWord_regs (s : State) (m : Master) (a v : Word) :
    (s.writeWord m a v).regs = s.regs := by
  simp [State.writeWord]
@[simp] theorem State.writeWord_csrs (s : State) (m : Master) (a v : Word) :
    (s.writeWord m a v).csrs = s.csrs := by
  simp [State.writeWord]
@[simp] theorem State.writeWord_halted (s : State) (m : Master) (a v : Word) :
    (s.writeWord m a v).halted = s.halted := by
  simp [State.writeWord]
@[simp] theorem State.writeWord_run (s : State) (m : Master) (a v : Word) :
    (s.writeWord m a v).run = s.run := by
  simp [State.writeWord]
@[simp] theorem State.writeWord_clk (s : State) (m : Master) (a v : Word) :
    (s.writeWord m a v).clk = s.clk := by
  simp [State.writeWord]
@[simp] theorem State.writeWord_display (s : State) (m : Master) (a v : Word) :
    (s.writeWord m a v).display = s.display := by
  simp [State.writeWord]
@[simp] theorem State.writeWord_agenda (s : State) (m : Master) (a v : Word) :
    (s.writeWord m a v).agenda = s.agenda := by
  simp [State.writeWord]
@[simp] theorem State.writeWord_replies (s : State) (m : Master) (a v : Word) :
    (s.writeWord m a v).replies = s.replies := by
  simp [State.writeWord]
@[simp] theorem State.writeWord_params (s : State) (m : Master) (a v : Word) :
    (s.writeWord m a v).params = s.params := by
  simp [State.writeWord]
@[simp] theorem State.writeWord_reg (s : State) (m : Master) (a v : Word) (q : Reg) :
    (s.writeWord m a v).reg q = s.reg q := by
  simp [State.writeWord]

/-- A byte of RAM after a byte write: the written one if it lies in RAM and may be written, else as before (R68, R76). -/
theorem State.writeByte_mem (s : State) (m : Master) (a : Word) (b : Byte) (hw : s.mem.wf = true) (x : Nat) :
    (s.writeByte m a b).mem.read x =
      if x = a.toNat ∧ a ≤ Config.memMax ∧ writeProhibited s.params m a = false then b else s.mem.read x := by
  by_cases h0 : a ≤ Config.memMax
  · by_cases hp : writeProhibited s.params m a = false
    · have : s.writeByte m a b = s.putMem (s.mem.write a.toNat b) := by
        unfold State.writeByte State.storeByte
        rw [hp, (target_ram_iff a).mpr h0]; rfl
      rw [this, State.putMem_mem, Memory.read_write s.mem a.toNat x b hw]
      by_cases hx : x = a.toNat <;> simp [hx, h0, hp]
    · have : s.writeByte m a b = s := by
        unfold State.writeByte
        rw [if_pos (by simpa using hp)]
      rw [this, if_neg (fun h => hp h.2.2)]
  · rw [if_neg (fun h => h0 h.2.1)]
    rcases State.writeByte_cases s m a b with h | ⟨hr, _, _⟩ | ⟨_, h⟩ | ⟨_, h⟩
    · rw [h]
    · exact absurd hr h0
    · rcases State.writeTxd_cases s b with h' | ⟨k, h'⟩ <;> rw [h, h'] <;> rfl
    · rw [h]; rfl

/-- A byte write keeps the canonical form of RAM. -/
theorem State.writeByte_wf (s : State) (m : Master) (a : Word) (b : Byte) (hw : s.mem.wf = true) :
    (s.writeByte m a b).mem.wf = true := by
  rcases State.writeByte_cases s m a b with h | ⟨hr, _, h⟩ | ⟨_, h⟩ | ⟨_, h⟩
  · rw [h]; exact hw
  · rw [h]; exact Memory.wf_write s.mem a.toNat b hw hr
  · rcases State.writeTxd_cases s b with h' | ⟨k, h'⟩ <;> rw [h, h'] <;> exact hw
  · rw [h]; exact hw

/-- A word write keeps the canonical form of RAM. -/
theorem State.writeWord_wf (s : State) (m : Master) (a v : Word) (hw : s.mem.wf = true) :
    (s.writeWord m a v).mem.wf = true :=
  State.writeByte_wf _ m (a + 1) _ (State.writeByte_wf s m a _ hw)

/-! ## Stores into registers -/

/-- What a store into a register can do: the register takes the value, and `H` may be cleared, which happens only for a
store into `f` (R241). -/
theorem State.writeReg_cases (s : State) (r : Reg) (v : Word) :
    s.writeReg r v = s.putReg r v ∨
    (r = .f ∧ setsPending s.f v = true ∧
      s.writeReg r v = (s.putReg r v).putCsr0 (withH s.csrs.csr0 false)) := by
  unfold State.writeReg
  split
  · next h => exact .inr ⟨h.1, h.2, rfl⟩
  · exact .inl rfl

/-- A store into a register other than `f` does nothing else. -/
theorem State.writeReg_of_ne (s : State) (r : Reg) (v : Word) (h : r ≠ .f) : s.writeReg r v = s.putReg r v := by
  rcases State.writeReg_cases s r v with h' | ⟨hf, _, _⟩
  · exact h'
  · exact absurd hf h

/-- What any register reads after a store into one. -/
theorem State.writeReg_reg (s : State) (r q : Reg) (v : Word) :
    (s.writeReg r v).reg q = if q = r then v else s.reg q := by
  rcases State.writeReg_cases s r v with h | ⟨_, _, h⟩ <;> rw [h]
  · exact State.putReg_reg s r q v
  · exact State.putReg_reg s r q v

@[simp] theorem State.writeReg_reg_same (s : State) (r : Reg) (v : Word) : (s.writeReg r v).reg r = v := by
  rw [State.writeReg_reg, if_pos rfl]

theorem State.writeReg_f (s : State) (r : Reg) (v : Word) :
    (s.writeReg r v).f = if Reg.f = r then v else s.f := State.writeReg_reg s r .f v

theorem State.writeReg_pc (s : State) (r : Reg) (v : Word) :
    (s.writeReg r v).pc = if Reg.pc = r then v else s.pc := State.writeReg_reg s r .pc v

@[simp] theorem State.writeReg_halted (s : State) (r : Reg) (v : Word) : (s.writeReg r v).halted = s.halted := by
  rcases State.writeReg_cases s r v with h | ⟨_, _, h⟩ <;> rw [h] <;> rfl
@[simp] theorem State.writeReg_run (s : State) (r : Reg) (v : Word) : (s.writeReg r v).run = s.run := by
  rcases State.writeReg_cases s r v with h | ⟨_, _, h⟩ <;> rw [h] <;> rfl
@[simp] theorem State.writeReg_mem (s : State) (r : Reg) (v : Word) : (s.writeReg r v).mem = s.mem := by
  rcases State.writeReg_cases s r v with h | ⟨_, _, h⟩ <;> rw [h] <;> rfl
@[simp] theorem State.writeReg_clk (s : State) (r : Reg) (v : Word) : (s.writeReg r v).clk = s.clk := by
  rcases State.writeReg_cases s r v with h | ⟨_, _, h⟩ <;> rw [h] <;> rfl
@[simp] theorem State.writeReg_kbd (s : State) (r : Reg) (v : Word) : (s.writeReg r v).kbd = s.kbd := by
  rcases State.writeReg_cases s r v with h | ⟨_, _, h⟩ <;> rw [h] <;> rfl
@[simp] theorem State.writeReg_display (s : State) (r : Reg) (v : Word) : (s.writeReg r v).display = s.display := by
  rcases State.writeReg_cases s r v with h | ⟨_, _, h⟩ <;> rw [h] <;> rfl
@[simp] theorem State.writeReg_agenda (s : State) (r : Reg) (v : Word) : (s.writeReg r v).agenda = s.agenda := by
  rcases State.writeReg_cases s r v with h | ⟨_, _, h⟩ <;> rw [h] <;> rfl
@[simp] theorem State.writeReg_replies (s : State) (r : Reg) (v : Word) : (s.writeReg r v).replies = s.replies := by
  rcases State.writeReg_cases s r v with h | ⟨_, _, h⟩ <;> rw [h] <;> rfl
@[simp] theorem State.writeReg_params (s : State) (r : Reg) (v : Word) : (s.writeReg r v).params = s.params := by
  rcases State.writeReg_cases s r v with h | ⟨_, _, h⟩ <;> rw [h] <;> rfl
@[simp] theorem State.writeReg_draws (s : State) (r : Reg) (v : Word) : (s.writeReg r v).draws = s.draws := by
  rcases State.writeReg_cases s r v with h | ⟨_, _, h⟩ <;> rw [h] <;> rfl
@[simp] theorem State.writeReg_csr1 (s : State) (r : Reg) (v : Word) :
    (s.writeReg r v).csrs.csr1 = s.csrs.csr1 := by
  rcases State.writeReg_cases s r v with h | ⟨_, _, h⟩ <;> rw [h] <;> rfl
@[simp] theorem State.writeReg_csr2 (s : State) (r : Reg) (v : Word) :
    (s.writeReg r v).csrs.csr2 = s.csrs.csr2 := by
  rcases State.writeReg_cases s r v with h | ⟨_, _, h⟩ <;> rw [h] <;> rfl
@[simp] theorem State.writeReg_csr3 (s : State) (r : Reg) (v : Word) :
    (s.writeReg r v).csrs.csr3 = s.csrs.csr3 := by
  rcases State.writeReg_cases s r v with h | ⟨_, _, h⟩ <;> rw [h] <;> rfl
@[simp] theorem State.writeReg_csr4 (s : State) (r : Reg) (v : Word) :
    (s.writeReg r v).csrs.csr4 = s.csrs.csr4 := by
  rcases State.writeReg_cases s r v with h | ⟨_, _, h⟩ <;> rw [h] <;> rfl
@[simp] theorem State.writeReg_csr5 (s : State) (r : Reg) (v : Word) :
    (s.writeReg r v).csrs.csr5 = s.csrs.csr5 := by
  rcases State.writeReg_cases s r v with h | ⟨_, _, h⟩ <;> rw [h] <;> rfl

/-- `csr0` after a store into a register: `H` is cleared exactly when the store into `f` newly sets a pending bit (R241). -/
theorem State.writeReg_csr0 (s : State) (r : Reg) (v : Word) :
    (s.writeReg r v).csrs.csr0 =
      if r = .f ∧ setsPending s.f v = true then withH s.csrs.csr0 false else s.csrs.csr0 := by
  unfold State.writeReg
  split <;> rfl

/-! ## Flags -/

@[simp] theorem State.putFlags_csrs (s : State) (q : ZCSO) : (s.putFlags q).csrs = s.csrs := rfl
@[simp] theorem State.putFlags_halted (s : State) (q : ZCSO) : (s.putFlags q).halted = s.halted := rfl
@[simp] theorem State.putFlags_run (s : State) (q : ZCSO) : (s.putFlags q).run = s.run := rfl
@[simp] theorem State.putFlags_mem (s : State) (q : ZCSO) : (s.putFlags q).mem = s.mem := rfl
@[simp] theorem State.putFlags_clk (s : State) (q : ZCSO) : (s.putFlags q).clk = s.clk := rfl
@[simp] theorem State.putFlags_kbd (s : State) (q : ZCSO) : (s.putFlags q).kbd = s.kbd := rfl
@[simp] theorem State.putFlags_display (s : State) (q : ZCSO) : (s.putFlags q).display = s.display := rfl
@[simp] theorem State.putFlags_agenda (s : State) (q : ZCSO) : (s.putFlags q).agenda = s.agenda := rfl
@[simp] theorem State.putFlags_replies (s : State) (q : ZCSO) : (s.putFlags q).replies = s.replies := rfl
@[simp] theorem State.putFlags_params (s : State) (q : ZCSO) : (s.putFlags q).params = s.params := rfl
@[simp] theorem State.putFlags_draws (s : State) (q : ZCSO) : (s.putFlags q).draws = s.draws := rfl

@[simp] theorem State.setFlags_csrs (s : State) (d : Reg) (q : ZCSO) : (s.setFlags d q).csrs = s.csrs := by
  unfold State.setFlags; split <;> rfl
@[simp] theorem State.setFlags_halted (s : State) (d : Reg) (q : ZCSO) : (s.setFlags d q).halted = s.halted := by
  unfold State.setFlags; split <;> rfl
@[simp] theorem State.setFlags_run (s : State) (d : Reg) (q : ZCSO) : (s.setFlags d q).run = s.run := by
  unfold State.setFlags; split <;> rfl
@[simp] theorem State.setFlags_mem (s : State) (d : Reg) (q : ZCSO) : (s.setFlags d q).mem = s.mem := by
  unfold State.setFlags; split <;> rfl
@[simp] theorem State.setFlags_clk (s : State) (d : Reg) (q : ZCSO) : (s.setFlags d q).clk = s.clk := by
  unfold State.setFlags; split <;> rfl
@[simp] theorem State.setFlags_kbd (s : State) (d : Reg) (q : ZCSO) : (s.setFlags d q).kbd = s.kbd := by
  unfold State.setFlags; split <;> rfl
@[simp] theorem State.setFlags_display (s : State) (d : Reg) (q : ZCSO) : (s.setFlags d q).display = s.display := by
  unfold State.setFlags; split <;> rfl
@[simp] theorem State.setFlags_agenda (s : State) (d : Reg) (q : ZCSO) : (s.setFlags d q).agenda = s.agenda := by
  unfold State.setFlags; split <;> rfl
@[simp] theorem State.setFlags_replies (s : State) (d : Reg) (q : ZCSO) : (s.setFlags d q).replies = s.replies := by
  unfold State.setFlags; split <;> rfl
@[simp] theorem State.setFlags_params (s : State) (d : Reg) (q : ZCSO) : (s.setFlags d q).params = s.params := by
  unfold State.setFlags; split <;> rfl
@[simp] theorem State.setFlags_draws (s : State) (d : Reg) (q : ZCSO) : (s.setFlags d q).draws = s.draws := by
  unfold State.setFlags; split <;> rfl

@[simp] theorem State.setFlags2_csrs (s : State) (d t : Reg) (q : ZCSO) : (s.setFlags2 d t q).csrs = s.csrs := by
  unfold State.setFlags2; split <;> rfl
@[simp] theorem State.setFlags2_halted (s : State) (d t : Reg) (q : ZCSO) : (s.setFlags2 d t q).halted = s.halted := by
  unfold State.setFlags2; split <;> rfl
@[simp] theorem State.setFlags2_run (s : State) (d t : Reg) (q : ZCSO) : (s.setFlags2 d t q).run = s.run := by
  unfold State.setFlags2; split <;> rfl
@[simp] theorem State.setFlags2_mem (s : State) (d t : Reg) (q : ZCSO) : (s.setFlags2 d t q).mem = s.mem := by
  unfold State.setFlags2; split <;> rfl
@[simp] theorem State.setFlags2_clk (s : State) (d t : Reg) (q : ZCSO) : (s.setFlags2 d t q).clk = s.clk := by
  unfold State.setFlags2; split <;> rfl
@[simp] theorem State.setFlags2_kbd (s : State) (d t : Reg) (q : ZCSO) : (s.setFlags2 d t q).kbd = s.kbd := by
  unfold State.setFlags2; split <;> rfl
@[simp] theorem State.setFlags2_display (s : State) (d t : Reg) (q : ZCSO) : (s.setFlags2 d t q).display = s.display := by
  unfold State.setFlags2; split <;> rfl
@[simp] theorem State.setFlags2_agenda (s : State) (d t : Reg) (q : ZCSO) : (s.setFlags2 d t q).agenda = s.agenda := by
  unfold State.setFlags2; split <;> rfl
@[simp] theorem State.setFlags2_replies (s : State) (d t : Reg) (q : ZCSO) : (s.setFlags2 d t q).replies = s.replies := by
  unfold State.setFlags2; split <;> rfl
@[simp] theorem State.setFlags2_params (s : State) (d t : Reg) (q : ZCSO) : (s.setFlags2 d t q).params = s.params := by
  unfold State.setFlags2; split <;> rfl
@[simp] theorem State.setFlags2_draws (s : State) (d t : Reg) (q : ZCSO) : (s.setFlags2 d t q).draws = s.draws := by
  unfold State.setFlags2; split <;> rfl

/-- Writing the flags changes register `f` alone. -/
theorem State.putFlags_reg (s : State) (q : ZCSO) (r : Reg) :
    (s.putFlags q).reg r = if r = .f then flagWord s.f q else s.reg r := State.putReg_reg s .f r _

/-- Signalling the flags of an instruction with destination `d` changes register `f` alone, and not even it when `d` is `f`
(R34). -/
theorem State.setFlags_reg (s : State) (d : Reg) (q : ZCSO) (r : Reg) :
    (s.setFlags d q).reg r = if r = .f ∧ d ≠ .f then flagWord s.f q else s.reg r := by
  unfold State.setFlags
  by_cases h : d = .f
  · simp [h]
  · simp [h, State.putFlags_reg]

/-- Signalling the flags of a multiply changes register `f` alone, and not even it when an output is `f` (R196). -/
theorem State.setFlags2_reg (s : State) (d t : Reg) (q : ZCSO) (r : Reg) :
    (s.setFlags2 d t q).reg r = if r = .f ∧ d ≠ .f ∧ t ≠ .f then flagWord s.f q else s.reg r := by
  unfold State.setFlags2
  by_cases h : d = .f ∨ t = .f
  · rw [if_pos h]; split
    · next h' => exact absurd h (by simp [h'.2.1, h'.2.2])
    · rfl
  · rw [if_neg h, State.putFlags_reg]
    rw [not_or] at h
    simp [h]

/-! ## CSRs -/

@[simp] theorem State.csrWrite_regs (s : State) (c : Csr) (v : Word) : (s.csrWrite c v).regs = s.regs := by
  cases c <;> rfl
@[simp] theorem State.csrWrite_halted (s : State) (c : Csr) (v : Word) : (s.csrWrite c v).halted = s.halted := by
  cases c <;> rfl
@[simp] theorem State.csrWrite_run (s : State) (c : Csr) (v : Word) : (s.csrWrite c v).run = s.run := by
  cases c <;> rfl
@[simp] theorem State.csrWrite_mem (s : State) (c : Csr) (v : Word) : (s.csrWrite c v).mem = s.mem := by
  cases c <;> rfl
@[simp] theorem State.csrWrite_clk (s : State) (c : Csr) (v : Word) : (s.csrWrite c v).clk = s.clk := by
  cases c <;> rfl
@[simp] theorem State.csrWrite_kbd (s : State) (c : Csr) (v : Word) : (s.csrWrite c v).kbd = s.kbd := by
  cases c <;> rfl
@[simp] theorem State.csrWrite_display (s : State) (c : Csr) (v : Word) : (s.csrWrite c v).display = s.display := by
  cases c <;> rfl
@[simp] theorem State.csrWrite_agenda (s : State) (c : Csr) (v : Word) : (s.csrWrite c v).agenda = s.agenda := by
  cases c <;> rfl
@[simp] theorem State.csrWrite_replies (s : State) (c : Csr) (v : Word) : (s.csrWrite c v).replies = s.replies := by
  cases c <;> rfl
@[simp] theorem State.csrWrite_params (s : State) (c : Csr) (v : Word) : (s.csrWrite c v).params = s.params := by
  cases c <;> rfl
@[simp] theorem State.csrWrite_draws (s : State) (c : Csr) (v : Word) : (s.csrWrite c v).draws = s.draws := by
  cases c <;> rfl
@[simp] theorem State.csrWrite_reg (s : State) (c : Csr) (v : Word) (q : Reg) : (s.csrWrite c v).reg q = s.reg q := by
  cases c <;> rfl

/-! ## Exceptions -/

@[simp] theorem State.raise_run (s : State) (e : Reason) : (s.raise e).run = s.run := by
  unfold State.raise; dsimp only; split <;> rfl
@[simp] theorem State.raise_mem (s : State) (e : Reason) : (s.raise e).mem = s.mem := by
  unfold State.raise; dsimp only; split <;> rfl
@[simp] theorem State.raise_clk (s : State) (e : Reason) : (s.raise e).clk = s.clk := by
  unfold State.raise; dsimp only; split <;> rfl
@[simp] theorem State.raise_kbd (s : State) (e : Reason) : (s.raise e).kbd = s.kbd := by
  unfold State.raise; dsimp only; split <;> rfl
@[simp] theorem State.raise_display (s : State) (e : Reason) : (s.raise e).display = s.display := by
  unfold State.raise; dsimp only; split <;> rfl
@[simp] theorem State.raise_agenda (s : State) (e : Reason) : (s.raise e).agenda = s.agenda := by
  unfold State.raise; dsimp only; split <;> rfl
@[simp] theorem State.raise_replies (s : State) (e : Reason) : (s.raise e).replies = s.replies := by
  unfold State.raise; dsimp only; split <;> rfl
@[simp] theorem State.raise_params (s : State) (e : Reason) : (s.raise e).params = s.params := by
  unfold State.raise; dsimp only; split <;> rfl
@[simp] theorem State.raise_draws (s : State) (e : Reason) : (s.raise e).draws = s.draws := by
  unfold State.raise; dsimp only; split <;> rfl

/-- Raising an exception sets `exc` and changes no other register (R231). -/
theorem State.raise_reg (s : State) (e : Reason) (q : Reg) :
    (s.raise e).reg q = if q = .f then withBit s.f 9 true else s.reg q := by
  unfold State.raise
  dsimp only
  split <;> simp [State.putReg_reg]

/-- Raising an exception records the reason and `H` in `csr0` and changes no other CSR (R231). -/
theorem State.raise_csrs (s : State) (e : Reason) :
    (s.raise e).csrs =
      { s.csrs with csr0 := withH (wordOf (highByte s.csrs.csr0) (reasonCode e)) true } := by
  unfold State.raise
  dsimp only
  split <;> rfl

/-- Raising an exception halts the CPU exactly when interrupts are disabled (R231). -/
theorem State.raise_halted (s : State) (e : Reason) : (s.raise e).halted = (s.halted || !s.ie) := by
  unfold State.raise
  dsimp only
  cases h : s.ie <;> simp

/-- What the interrupt test can do (R246). -/
theorem State.testInterrupts_cases (s : State) :
    (s.entryDue = false ∧ s.testInterrupts = s) ∨ (s.entryDue = true ∧ s.testInterrupts = s.enterHandler) := by
  unfold State.testInterrupts
  cases h : s.entryDue <;> simp

@[simp] theorem State.enterHandler_csrs (s : State) : s.enterHandler.csrs = s.csrs := rfl
@[simp] theorem State.enterHandler_halted (s : State) : s.enterHandler.halted = s.halted := rfl
@[simp] theorem State.enterHandler_run (s : State) : s.enterHandler.run = s.run := rfl
@[simp] theorem State.enterHandler_mem (s : State) : s.enterHandler.mem = s.mem := rfl
@[simp] theorem State.enterHandler_clk (s : State) : s.enterHandler.clk = s.clk := rfl
@[simp] theorem State.enterHandler_kbd (s : State) : s.enterHandler.kbd = s.kbd := rfl
@[simp] theorem State.enterHandler_display (s : State) : s.enterHandler.display = s.display := rfl
@[simp] theorem State.enterHandler_agenda (s : State) : s.enterHandler.agenda = s.agenda := rfl
@[simp] theorem State.enterHandler_replies (s : State) : s.enterHandler.replies = s.replies := rfl
@[simp] theorem State.enterHandler_params (s : State) : s.enterHandler.params = s.params := rfl
@[simp] theorem State.enterHandler_draws (s : State) : s.enterHandler.draws = s.draws := rfl
@[simp] theorem State.returnFromHandler_csrs (s : State) : s.returnFromHandler.csrs = s.csrs := rfl
@[simp] theorem State.returnFromHandler_halted (s : State) : s.returnFromHandler.halted = s.halted := rfl
@[simp] theorem State.returnFromHandler_run (s : State) : s.returnFromHandler.run = s.run := rfl
@[simp] theorem State.returnFromHandler_mem (s : State) : s.returnFromHandler.mem = s.mem := rfl
@[simp] theorem State.returnFromHandler_clk (s : State) : s.returnFromHandler.clk = s.clk := rfl
@[simp] theorem State.returnFromHandler_kbd (s : State) : s.returnFromHandler.kbd = s.kbd := rfl
@[simp] theorem State.returnFromHandler_display (s : State) : s.returnFromHandler.display = s.display := rfl
@[simp] theorem State.returnFromHandler_agenda (s : State) : s.returnFromHandler.agenda = s.agenda := rfl
@[simp] theorem State.returnFromHandler_replies (s : State) : s.returnFromHandler.replies = s.replies := rfl
@[simp] theorem State.returnFromHandler_params (s : State) : s.returnFromHandler.params = s.params := rfl
@[simp] theorem State.returnFromHandler_draws (s : State) : s.returnFromHandler.draws = s.draws := rfl

/-- Entry into the handler: `f`, `ia` and `pc` change as the rule says, no other register does (R246, R248). -/
theorem State.enterHandler_reg (s : State) (q : Reg) :
    s.enterHandler.reg q =
      if q = .pc then s.reg .ia else if q = .ia then s.reg .pc else if q = .f then withBit s.f 8 false else s.reg q := by
  simp only [State.enterHandler, State.putReg_reg]

/-- The return from the handler: `f`, `pc` and `ia` change as the rule says, no other register does (R201). -/
theorem State.returnFromHandler_reg (s : State) (q : Reg) :
    s.returnFromHandler.reg q =
      if q = .ia then s.csrRead .csr1 else if q = .pc then s.reg .ia else if q = .f then withBit s.f 8 true
      else s.reg q := by
  simp only [State.returnFromHandler, State.putReg_reg]

/-- An optional instruction: its effect when IMPLEMENTED lists it, else IINSTR (R5, R203). -/
theorem State.ifImplemented_cases (s : State) (o : OptionalInstr) (e : State) :
    (o ∈ s.params.implemented ∧ s.ifImplemented o e = .next e) ∨
    (o ∉ s.params.implemented ∧ s.ifImplemented o e = .next (s.raise .iinstr)) := by
  unfold State.ifImplemented
  by_cases h : o ∈ s.params.implemented
  · exact .inl ⟨h, if_pos h⟩
  · exact .inr ⟨h, if_neg h⟩

end Sys2Proof.Machine
end

