-- ==== Sys2Proof/Laws/Claims.lean ====
section
/-! SUPPORT. The shared operations in the words of Safety.lean: which frames they keep, what they do to `csr0`. -/

namespace Sys2Proof.Machine

/-- Bits 9 to 15 of a word, as a mask. -/
theorem pendingMask_getLsbD (j : Nat) : (0xfe00#16).getLsbD j = (decide (9 ≤ j) && decide (j ≤ 15)) := by
  by_cases h : j < 16
  · have : ∀ k : Fin 16, (0xfe00#16).getLsbD k.val = (decide (9 ≤ k.val) && decide (k.val ≤ 15)) := by decide
    exact this ⟨j, h⟩
  · rw [BitVec.getLsbD_of_ge _ j (by omega)]
    simp [show ¬ j ≤ 15 by omega]

/-- A word masked to bits 9 to 15 is not 0 exactly when one of them is set. -/
theorem pending_ne_zero_iff (v : Word) :
    ((v &&& 0xfe00#16) != 0) = true ↔ ∃ j, 9 ≤ j ∧ j ≤ 15 ∧ v.getLsbD j = true := by
  rw [bne_iff_ne]
  constructor
  · intro h
    by_contra hn
    apply h
    apply BitVec.eq_of_getLsbD_eq
    intro j hj
    rw [BitVec.getLsbD_and, pendingMask_getLsbD]
    by_cases h9 : 9 ≤ j
    · have : v.getLsbD j = false := by
        by_contra hb
        exact hn ⟨j, h9, by omega, by simpa using hb⟩
      simp [this]
    · simp [h9]
  · rintro ⟨j, h9, h15, hb⟩ h0
    have := congrArg (fun w => w.getLsbD j) h0
    simp [BitVec.getLsbD_and, pendingMask_getLsbD, h9, h15, hb] at this

/-- A store into `f` raises something exactly when it newly sets a bit 9 to 15 (R241). -/
theorem setsPending_iff (old new : Word) :
    setsPending old new = true ↔ ∃ j, 9 ≤ j ∧ j ≤ 15 ∧ new.getLsbD j = true ∧ old.getLsbD j = false := by
  unfold setsPending
  rw [pending_ne_zero_iff]
  constructor
  · rintro ⟨j, h9, h15, hb⟩
    refine ⟨j, h9, h15, ?_⟩
    simpa [show j < 16 by omega] using hb
  · rintro ⟨j, h9, h15, hb, ho⟩
    refine ⟨j, h9, h15, ?_⟩
    rw [BitVec.getLsbD_and, BitVec.getLsbD_not, hb, ho]
    simp [show j < 16 by omega]

/-- The handler is due exactly when interrupts are enabled and a bit 9 to 15 of `f` is set (R246). -/
theorem State.entryDue_iff (s : State) :
    s.entryDue = true ↔ s.ie = true ∧ ∃ j, 9 ≤ j ∧ j ≤ 15 ∧ s.f.getLsbD j = true := by
  unfold State.entryDue
  rw [Bool.and_eq_true, pending_ne_zero_iff]

/-- Clearing `H` changes no other bit. -/
theorem sameCsrsButH_withH (s t : State) (b : Bool) (h : t.csrs = { s.csrs with csr0 := withH s.csrs.csr0 b }) :
    t.csrs.csr0.getLsbD 8 = b ∧ SameCsrsButH s t := by
  rw [SameCsrsButH, h]
  refine ⟨withBit_same _ 8 b (by decide), fun j hj => withBit_of_ne _ 8 j b (by decide) hj, rfl, rfl, rfl, rfl, rfl⟩

/-- What a store into a register does to the CSRs (R241). -/
theorem State.writeReg_csrsAfterStore (s : State) (d : Reg) (v : Word) : CsrsAfterStore s (s.writeReg d v) := by
  have hn : NewlyPending s (s.writeReg d v) ↔ d = .f ∧ setsPending s.f v = true := by
    unfold NewlyPending
    rw [State.writeReg_f]
    by_cases hd : d = .f
    · subst hd
      simp only [if_true, true_and]
      rw [setsPending_iff]
    · rw [if_neg (fun h => hd h.symm)]
      constructor
      · rintro ⟨j, _, _, h1, h2⟩
        rw [h1] at h2; cases h2
      · rintro ⟨h, _⟩; exact absurd h hd
  constructor
  · intro h
    obtain ⟨hd, hp⟩ := hn.mp h
    apply sameCsrsButH_withH
    unfold State.writeReg
    rw [if_pos ⟨hd, hp⟩]; rfl
  · intro h
    unfold State.writeReg
    rw [if_neg (fun h' => h (hn.mpr h'))]; rfl

/-- The rule for `csr0` looks at bits 9 to 15 of `f` and at the CSRs alone. -/
theorem CsrsAfterStore.congr {s t u : State} (h : CsrsAfterStore s t) (hf : ∀ j, 9 ≤ j → u.f.getLsbD j = t.f.getLsbD j)
    (hc : u.csrs = t.csrs) : CsrsAfterStore s u := by
  have hn : NewlyPending s u ↔ NewlyPending s t := by
    constructor
    · rintro ⟨j, h9, h15, hb, ho⟩; exact ⟨j, h9, h15, by rw [← hf j h9]; exact hb, ho⟩
    · rintro ⟨j, h9, h15, hb, ho⟩; exact ⟨j, h9, h15, by rw [hf j h9]; exact hb, ho⟩
  unfold CsrsAfterStore SameCsrsButH
  rw [hn, hc]
  exact h

/-- Nothing newly pending and no CSR changed. -/
theorem csrsAfterStore_of_same {s t : State} (hf : ∀ j, 9 ≤ j → t.f.getLsbD j = s.f.getLsbD j) (hc : t.csrs = s.csrs) :
    CsrsAfterStore s t := by
  refine ⟨fun ⟨j, h9, _, hb, ho⟩ => ?_, fun _ => hc⟩
  rw [hf j h9, ho] at hb; cases hb

/-- Only `f` and the CSRs of the state before matter to the rule for `csr0`. -/
theorem CsrsAfterStore.of_same_before {s u t : State} (h : CsrsAfterStore u t) (hf : u.f = s.f) (hc : u.csrs = s.csrs) :
    CsrsAfterStore s t := by
  unfold CsrsAfterStore NewlyPending SameCsrsButH at *
  rw [hf, hc] at h
  exact h

/-- Two stores into different registers. -/
theorem State.writeReg_writeReg_csrsAfterStore (s : State) (d r : Reg) (v w : Word) (h : d ≠ r) :
    CsrsAfterStore s ((s.writeReg d v).writeReg r w) := by
  by_cases hr : r = .f
  · have hd : d ≠ .f := fun hd => h (hd.trans hr.symm)
    rw [State.writeReg_of_ne s d v hd]
    refine (State.writeReg_csrsAfterStore (s.putReg d v) r w).of_same_before ?_ rfl
    rw [State.putReg_f, if_neg (Ne.symm hd)]
  · refine (State.writeReg_csrsAfterStore s d v).congr (fun j _ => ?_) ?_
    · rw [State.writeReg_f (s.writeReg d v) r w, if_neg (Ne.symm hr)]
    · rw [State.writeReg_of_ne _ r w hr]; rfl

/-- Two states alike outside registers, CSRs and the count of free values. -/
theorem sameElsewhere_of {s t : State} (hh : t.halted = s.halted) (hm : t.mem = s.mem) (hk : t.kbd = s.kbd)
    (hc : t.clk = s.clk) (hd : t.display = s.display) (ha : t.agenda = s.agenda) (hr : t.replies = s.replies)
    (hp : t.params = s.params) (hrun : t.run = s.run) : SameElsewhere s t :=
  ⟨hh, fun _ => by unfold State.ram; rw [hm], ⟨hk, hc, hd⟩, ha, hr, hp, hrun⟩

/-- Raising an exception has exactly the effect claims speak of (R231). -/
theorem State.raise_raises (s : State) (e : Reason) : Raises s (s.raise e) (reasonCode e).toNat := by
  have hc := State.raise_csrs s e
  have hf : (s.raise e).f = withBit s.f 9 true := State.raise_reg s e .f
  refine ⟨?_, ?_, ?_, ?_, ?_, ?_, ?_, ?_, ?_, ?_, ?_, ?_⟩
  · rw [hc]
    apply congrArg
    apply BitVec.eq_of_getLsbD_eq
    intro j hj
    simp only [lowByte, BitVec.getLsbD_extractLsb', withH]
    rw [show (0 + j) = j by omega, withBit_of_ne _ 8 j _ (by decide) (by omega)]
    have := congrArg (fun b => b.getLsbD j) (lowByte_wordOf (highByte s.csrs.csr0) (reasonCode e))
    simpa [lowByte, hj] using this
  · rw [hc]; exact withBit_same _ 8 true (by decide)
  · intro j hj
    rw [hc]
    simp only [withH]
    rw [withBit_of_ne _ 8 j _ (by decide) (by omega)]
    simp only [wordOf, highByte, BitVec.getLsbD_append, BitVec.getLsbD_extractLsb']
    simp only [show ¬ j < 8 by omega, if_false]
    by_cases h16 : j < 16
    · simp [show j - 8 < 8 by omega, show 8 + (j - 8) = j by omega]
    · simp [show ¬ j - 8 < 8 by omega, BitVec.getLsbD_of_ge s.csrs.csr0 j (by omega)]
  · rw [hc]
  · unfold State.exc; rw [hf]; exact withBit_same _ 9 true (by decide)
  · intro j hj; rw [hf]; exact withBit_of_ne _ 9 j true (by decide) hj
  · intro q hq; rw [State.raise_reg, if_neg (by simpa using hq)]
  · intro h; rw [State.raise_halted, h]; simp
  · intro h; rw [State.raise_halted, h]; simp
  · intro a; unfold State.ram; rw [State.raise_mem]
  · exact ⟨State.raise_kbd s e, State.raise_clk s e, State.raise_display s e⟩
  · exact ⟨State.raise_agenda s e, State.raise_replies s e, State.raise_params s e, State.raise_run s e⟩

/-- The flags an instruction has just signalled read back as the four truth values (R29). -/
theorem State.putFlags_says (s : State) (q : ZCSO) :
    FlagsSay (s.putFlags q) (q.z = true) (q.c = true) (q.s = true) (q.o = true) := by
  have h : (s.putFlags q).f = flagWord s.f q := State.putFlags_reg s q .f
  refine ⟨?_, ?_, ?_, ?_⟩ <;> rw [h, flagWord_getLsbD] <;> simp

/-- A store, then the flags: registers. -/
theorem State.putResult_reg (s : State) (d q : Reg) (r : Word) (z : ZCSO) :
    (s.putResult d r z).reg q =
      if q = .f ∧ d ≠ .f then flagWord s.f z else if q = d then r else s.reg q := by
  unfold State.putResult
  rw [State.setFlags_reg, State.writeReg_reg]
  by_cases hd : d = .f
  · simp [hd]
  · rw [State.writeReg_f, if_neg (Ne.symm hd)]

/-- The effect of a computational instruction, in the words of claims (R160, R165, R34). -/
theorem State.putResult_computes (s : State) (d : Reg) (r : Word) (q : ZCSO) (z c sg o : Prop) (hz : q.z = true ↔ z)
    (hc : q.c = true ↔ c) (hs : q.s = true ↔ sg) (ho : q.o = true ↔ o) :
    Computes s (s.putResult d r q) d r z c sg o := by
  have hf : ∀ h : d ≠ .f, (s.putResult d r q).f = flagWord s.f q := fun h => by
    unfold State.f; rw [State.putResult_reg]; simp [h]; rfl
  refine ⟨?_, ?_, ?_, ?_, ?_⟩
  · rw [State.putResult_reg]
    by_cases hd : d = .f <;> simp [hd]
  · intro x hx
    rw [State.putResult_reg]
    simp at hx
    simp [hx.1, hx.2]
  · intro hd
    refine ⟨⟨?_, ?_, ?_, ?_⟩, ?_⟩
    · rw [hf hd, flagWord_getLsbD]; simpa using hz
    · rw [hf hd, flagWord_getLsbD]; simpa using hc
    · rw [hf hd, flagWord_getLsbD]; simpa using hs
    · rw [hf hd, flagWord_getLsbD]; simpa using ho
    · intro j hj
      rw [hf hd, flagWord_getLsbD]
      rcases hj with hj | hj
      · simp [show j ≠ 7 by omega, show j ≠ 6 by omega, show j ≠ 5 by omega, show j ≠ 4 by omega]
      · simp [show j ≠ 7 by omega, show j ≠ 6 by omega, show j ≠ 5 by omega, show j ≠ 4 by omega]
  · refine (State.writeReg_csrsAfterStore s d r).congr (fun j hj => ?_) ?_
    · by_cases hd : d = .f
      · unfold State.putResult State.setFlags; rw [if_pos hd]
      · rw [hf hd, flagWord_high _ _ j (by omega), State.writeReg_f, if_neg (Ne.symm hd)]
    · unfold State.putResult; simp
  · unfold State.putResult
    exact sameElsewhere_of (by simp) (by simp) (by simp) (by simp) (by simp) (by simp) (by simp) (by simp) (by simp)

/-- The frame of a store into one register. -/
theorem State.writeReg_storesOnly (s : State) (d : Reg) (v : Word) : StoresOnly [d] s (s.writeReg d v) := by
  refine ⟨fun q hq => ?_, State.writeReg_csrsAfterStore s d v, ?_⟩
  · rw [State.writeReg_reg, if_neg (by simpa using hq)]
  · exact sameElsewhere_of (by simp) (by simp) (by simp) (by simp) (by simp) (by simp) (by simp) (by simp) (by simp)

/-- The frame of two stores into different registers. -/
theorem State.writeReg_writeReg_storesOnly (s : State) (d r : Reg) (v w : Word) (h : d ≠ r) :
    StoresOnly [d, r] s ((s.writeReg d v).writeReg r w) := by
  refine ⟨fun q hq => ?_, State.writeReg_writeReg_csrsAfterStore s d r v w h, ?_⟩
  · simp at hq
    rw [State.writeReg_reg, if_neg hq.2, State.writeReg_reg, if_neg hq.1]
  · exact sameElsewhere_of (by simp) (by simp) (by simp) (by simp) (by simp) (by simp) (by simp) (by simp) (by simp)

/-- Counting free values before the effect changes nothing a frame speaks of. -/
theorem StoresOnly.of_bump {l : List Reg} {s t : State} {n : Nat} (h : StoresOnly l (s.bump n) t) : StoresOnly l s t := h

/-! ## What no register operation touches -/

/-- Nothing but registers, `H` and the count of free values can differ. -/
structure Untouched (s t : State) : Prop where
  csrs : SameCsrsButH s t
  halted : t.halted = s.halted
  run : t.run = s.run
  mem : t.mem = s.mem
  clk : t.clk = s.clk
  kbd : t.kbd = s.kbd
  display : t.display = s.display
  agenda : t.agenda = s.agenda
  replies : t.replies = s.replies
  params : t.params = s.params

theorem SameCsrsButH.refl (s : State) : SameCsrsButH s s := ⟨fun _ _ => rfl, rfl, rfl, rfl, rfl, rfl⟩

theorem SameCsrsButH.trans {s t u : State} (h : SameCsrsButH s t) (k : SameCsrsButH t u) : SameCsrsButH s u :=
  ⟨fun j hj => (k.1 j hj).trans (h.1 j hj), k.2.1.trans h.2.1, k.2.2.1.trans h.2.2.1, k.2.2.2.1.trans h.2.2.2.1,
    k.2.2.2.2.1.trans h.2.2.2.2.1, k.2.2.2.2.2.trans h.2.2.2.2.2⟩

theorem SameCsrsButH.of_eq {s t : State} (h : t.csrs = s.csrs) : SameCsrsButH s t := by
  unfold SameCsrsButH; rw [h]; exact SameCsrsButH.refl s

theorem CsrsAfterStore.same {s t : State} (h : CsrsAfterStore s t) : SameCsrsButH s t := by
  by_cases hn : NewlyPending s t
  · exact (h.1 hn).2
  · exact SameCsrsButH.of_eq (h.2 hn)

theorem Untouched.refl (s : State) : Untouched s s :=
  ⟨SameCsrsButH.refl s, rfl, rfl, rfl, rfl, rfl, rfl, rfl, rfl, rfl⟩

theorem Untouched.trans {s t u : State} (h : Untouched s t) (k : Untouched t u) : Untouched s u :=
  ⟨h.csrs.trans k.csrs, k.halted.trans h.halted, k.run.trans h.run, k.mem.trans h.mem, k.clk.trans h.clk,
    k.kbd.trans h.kbd, k.display.trans h.display, k.agenda.trans h.agenda, k.replies.trans h.replies,
    k.params.trans h.params⟩

theorem State.bump_untouched (s : State) (n : Nat) : Untouched s (s.bump n) :=
  ⟨SameCsrsButH.of_eq rfl, rfl, rfl, rfl, rfl, rfl, rfl, rfl, rfl, rfl⟩
theorem State.drawWord_untouched (s : State) : Untouched s s.drawWord.2 :=
  ⟨SameCsrsButH.of_eq rfl, rfl, rfl, rfl, rfl, rfl, rfl, rfl, rfl, rfl⟩
theorem State.drawFlag_untouched (s : State) : Untouched s s.drawFlag.2 :=
  ⟨SameCsrsButH.of_eq rfl, rfl, rfl, rfl, rfl, rfl, rfl, rfl, rfl, rfl⟩
theorem State.putReg_untouched (s : State) (r : Reg) (v : Word) : Untouched s (s.putReg r v) :=
  ⟨SameCsrsButH.of_eq rfl, rfl, rfl, rfl, rfl, rfl, rfl, rfl, rfl, rfl⟩

theorem State.readByte_untouched (s : State) (a : Word) : Untouched s (s.readByte a).2 := by
  rcases State.readByte_state s a with h | h <;> rw [h]
  · exact Untouched.refl s
  · exact State.bump_untouched s 1

theorem State.readWord_untouched (s : State) (a : Word) : Untouched s (s.readWord a).2 := by
  obtain ⟨n, h⟩ := State.readWord_state s a
  rw [h]; exact State.bump_untouched s n

theorem State.writeReg_untouched (s : State) (r : Reg) (v : Word) : Untouched s (s.writeReg r v) :=
  ⟨(State.writeReg_csrsAfterStore s r v).same, by simp, by simp, by simp, by simp, by simp, by simp, by simp, by simp,
    by simp⟩

theorem State.putFlags_untouched (s : State) (q : ZCSO) : Untouched s (s.putFlags q) :=
  ⟨SameCsrsButH.of_eq rfl, rfl, rfl, rfl, rfl, rfl, rfl, rfl, rfl, rfl⟩

theorem State.setFlags_untouched (s : State) (d : Reg) (q : ZCSO) : Untouched s (s.setFlags d q) := by
  unfold State.setFlags; split
  · exact Untouched.refl s
  · exact State.putFlags_untouched s q

theorem State.setFlags2_untouched (s : State) (d t : Reg) (q : ZCSO) : Untouched s (s.setFlags2 d t q) := by
  unfold State.setFlags2; split
  · exact Untouched.refl s
  · exact State.putFlags_untouched s q

theorem State.exchange_untouched (s : State) (d t : Reg) : Untouched s (s.exchange d t) :=
  (State.writeReg_untouched s d _).trans (State.writeReg_untouched _ t _)

theorem State.load_untouched (s : State) (d t : Reg) : Untouched s (s.load d t) :=
  (State.readWord_untouched s _).trans (State.writeReg_untouched _ d _)

theorem State.addTwo_untouched (s : State) (t : Reg) : Untouched s (s.addTwo t) := State.writeReg_untouched s t _

theorem State.loadIncrement_untouched (s : State) (d t : Reg) : Untouched s (s.loadIncrement d t) := by
  unfold State.loadIncrement
  dsimp only
  refine (State.readWord_untouched s (s.reg t)).trans ?_
  split
  · exact (State.drawWord_untouched _).trans (State.writeReg_untouched _ d _)
  · exact (State.writeReg_untouched _ d _).trans (State.writeReg_untouched _ t _)

theorem State.loadIncrementExchange_untouched (s : State) (d t : Reg) :
    Untouched s (s.loadIncrementExchange d t) := by
  unfold State.loadIncrementExchange
  dsimp only
  refine (State.readWord_untouched s (s.reg t)).trans ?_
  split
  · exact (State.drawWord_untouched _).trans (State.writeReg_untouched _ d _)
  · exact (State.writeReg_untouched _ d _).trans (State.writeReg_untouched _ t _)

theorem State.putResult_untouched (s : State) (d : Reg) (r : Word) (q : ZCSO) : Untouched s (s.putResult d r q) :=
  (State.writeReg_untouched s d r).trans (State.setFlags_untouched _ d q)

theorem State.putProduct_untouched (s : State) (d t : Reg) (p : BitVec 32) (q : ZCSO) :
    Untouched s (s.putProduct d t p q) := by
  unfold State.putProduct
  dsimp only
  split
  · exact ((State.drawWord_untouched s).trans (State.writeReg_untouched _ d _)).trans (State.setFlags2_untouched _ d t q)
  · exact ((State.writeReg_untouched s d _).trans (State.writeReg_untouched _ t _)).trans
      (State.setFlags2_untouched _ d t q)

/-- The carry of a shift: at most one free value is counted. -/
theorem State.shiftCarry_state (s : State) (n : Nat) (b : Bool) : ∃ m, (s.shiftCarry n b).2 = s.bump m := by
  unfold State.shiftCarry
  split
  · exact ⟨0, rfl⟩
  · exact ⟨1, rfl⟩

/-- The overflow of `shra`: at most one free value is counted. -/
theorem State.shraOverflow_state (s : State) (n : Nat) (v : Word) : ∃ m, (s.shraOverflow n v).2 = s.bump m := by
  unfold State.shraOverflow
  split
  · exact ⟨0, rfl⟩
  · split
    · exact ⟨0, rfl⟩
    · exact ⟨1, rfl⟩

/-- The test of a conditional instruction (R145). -/
theorem State.test_iff (s : State) (k : Nat) (v : Bool) : s.test k v = true ↔ s.f.getLsbD k = v := by
  unfold State.test; simp

/-- A word store changes RAM and the keyboard alone. -/
theorem State.writeWord_storesToMemoryOnly (s : State) (m : Master) (a v : Word) :
    StoresToMemoryOnly s (s.writeWord m a v) :=
  ⟨by simp, by simp, by simp, by simp, by simp, by simp, by simp, by simp, by simp⟩

/-- A byte store changes RAM and the keyboard alone. -/
theorem State.writeByte_storesToMemoryOnly (s : State) (m : Master) (a : Word) (b : Byte) :
    StoresToMemoryOnly s (s.writeByte m a b) :=
  ⟨by simp, by simp, by simp, by simp, by simp, by simp, by simp, by simp, by simp⟩

/-- An address is writable by the CPU exactly when no write to it is dropped (R76). -/
theorem writable_iff (p : Params) (a : Word) : Writable p a ↔ writeProhibited p .cpu a = false := by
  unfold Writable writeProhibited inRom
  cases h : p.romRange with
  | none => simp
  | some x => obtain ⟨lo, hi⟩ := x; simp

/-- A byte written outside RAM leaves RAM as it was. -/
theorem State.writeByte_mem_device (s : State) (m : Master) (a : Word) (b : Byte) (h : Config.memMax < a) :
    (s.writeByte m a b).mem = s.mem := by
  rcases State.writeByte_cases s m a b with e | ⟨h', _, _⟩ | ⟨_, e⟩ | ⟨_, e⟩
  · rw [e]
  · exact absurd h (by simpa using h')
  · rw [e]; rcases State.writeTxd_cases s b with e | ⟨k, e⟩ <;> rw [e] <;> rfl
  · rw [e]; rfl

/-- What a byte stored by the CPU does to the keyboard controller, `TXD` being stored to only while `T` is 1. -/
theorem State.writeByte_kbd (s : State) (a : Word) (b : Byte) (hw : Writable s.params a)
    (hk : a = 0xffe0 → s.kbd.ready = true) : (s.writeByte .cpu a b).kbd = keyboardAfter s.kbd a b := by
  rw [writable_iff] at hw
  unfold State.writeByte State.storeByte keyboardAfter
  rw [hw]
  by_cases h1 : a = 0xffe0
  · subst h1
    have : target 0xffe0#16 = .txd := by decide
    simp [this, State.writeTxd, hk]
  · by_cases h2 : a = 0xffe1
    · subst h2
      have : target 0xffe1#16 = .rxd := by decide
      simp [this, State.writeRxd]
    · have : target a ≠ .txd ∧ target a ≠ .rxd := by
        unfold target
        rw [if_neg (show ¬ a = Config.kbdAddr from h1), if_neg (show ¬ a = Config.kbdAddr + 1 from h2)]
        constructor <;> (repeat' split) <;> decide
      rw [if_neg h1, if_neg h2]
      cases ht : target a <;> simp_all

/-- The bytes of a word as numbers. -/
theorem lowByte_toNat (v : Word) : (lowByte v).toNat = v.toNat % 256 := by simp [lowByte]
theorem highByte_toNat (v : Word) : (highByte v).toNat = v.toNat / 256 := by
  have := v.isLt
  simp [highByte, Nat.shiftRight_eq_div_pow]; omega

/-- The word of two bytes as a number. -/
theorem wordOf_toNat (h l : Byte) : (wordOf h l).toNat = l.toNat + 256 * h.toNat := by
  unfold wordOf
  rw [BitVec.toNat_append, ← Nat.shiftLeft_add_eq_or_of_lt l.isLt, Nat.shiftLeft_eq]; omega

/-- A register file is determined by what its registers read. -/
theorem Regs.ext_get (x y : Regs) (h : ∀ q, x.get q = y.get q) : x = y := by
  obtain ⟨⟩ := x; obtain ⟨⟩ := y
  simp only [Regs.mk.injEq]
  exact ⟨h .r0, h .r1, h .r2, h .r3, h .r4, h .r5, h .r6, h .r7, h .r8, h .r9, h .r10, h .sp, h .ca, h .ia, h .f, h .pc⟩

/-- A fetch from RAM reads the two bytes at `pc`, advances `pc` by 2 and changes nothing else (R26). -/
theorem State.fetch_ram (s : State) (h : WordInRam s.pc) :
    s.fetch = (decodeInstr (s.ram s.pc) (s.ram (s.pc + 1)), s.putReg .pc (s.pc + 2)) := by
  unfold State.fetch
  simp only [State.readByte_ram s _ h.1, State.readByte_ram s _ h.2]
  rfl

/-- A fetch from anywhere changes `pc` and the count of free values alone. -/
theorem State.fetch_untouched (s : State) : Untouched s s.fetch.2 :=
  ((State.readByte_untouched s _).trans (State.readByte_untouched _ _)).trans (State.putReg_untouched _ _ _)

/-- The interrupt test changes registers alone (R246). -/
theorem State.testInterrupts_untouched (s : State) : Untouched s s.testInterrupts := by
  unfold State.testInterrupts
  split
  · exact ⟨SameCsrsButH.of_eq rfl, rfl, rfl, rfl, rfl, rfl, rfl, rfl, rfl, rfl⟩
  · exact Untouched.refl s

/-- A step whose turn is not an event's is a turn of the CPU (log 13). -/
theorem step_cpu (s : State) (h : ∀ e rest, s.agenda ≠ .event e :: rest) :
    step s = cpuTurn (s.putAgenda s.agenda.tail) := by
  unfold step takeTurn
  cases ha : s.agenda with
  | nil =>
    have : s.putAgenda ([] : List Turn).tail = s := by
      show { s with agenda := [] } = s
      rw [← ha]
    simp only [this]
  | cons t rest =>
    cases t with
    | cpu => simp only [List.tail_cons]
    | event e => exact absurd ha (h e rest)

/-- A step whose turn is an event's is that event. -/
theorem step_event (s : State) (e : Event) (rest : List Turn) (h : s.agenda = .event e :: rest) :
    step s = applyEvent e (s.putAgenda rest) := by
  unfold step takeTurn; rw [h]

end Sys2Proof.Machine
end

