-- ==== Sys2Proof/Laws/Exec.lean ====
section
/-! SUPPORT. What an instruction can do, said once: raise an exception, write a CSR, store, or leave everything but
registers, `H` and the count of free values as it was. -/

namespace Sys2Proof.Machine

/-- An instruction whose next state is known leaves untouched what that state does. -/
theorem Untouched.of_exec {i : Instr} {s t u : State} (h : exec i s = .next t) (e : exec i s = .next u)
    (hu : Untouched s u) : Untouched s t := by
  rw [e] at h; injection h with h; rw [← h]; exact hu

theorem State.shiftCarry_putResult_untouched (s : State) (n : Nat) (b : Bool) (d : Reg) (r : Word) (q : ZCSO) :
    Untouched s ((s.shiftCarry n b).2.putResult d r q) := by
  obtain ⟨m, h⟩ := State.shiftCarry_state s n b
  rw [h]; exact (State.bump_untouched s m).trans (State.putResult_untouched _ d r q)

theorem State.shraOverflow_putResult_untouched (s : State) (n : Nat) (b : Bool) (d : Reg) (v r : Word) (q : ZCSO) :
    Untouched s (((s.shiftCarry n b).2.shraOverflow n v).2.putResult d r q) := by
  obtain ⟨m, h⟩ := State.shiftCarry_state s n b
  obtain ⟨k, e⟩ := State.shraOverflow_state (s.bump m) n v
  rw [h, e]
  exact ((State.bump_untouched s m).trans (State.bump_untouched _ k)).trans (State.putResult_untouched _ d r q)

theorem State.returnFromHandler_untouched (s : State) : Untouched s s.returnFromHandler :=
  ⟨SameCsrsButH.of_eq rfl, rfl, rfl, rfl, rfl, rfl, rfl, rfl, rfl, rfl⟩

theorem State.moveIf_untouched (s : State) (b : Bool) (d r : Reg) : Untouched s (s.moveIf b d r) := by
  unfold State.moveIf; split
  · exact State.writeReg_untouched _ _ _
  · exact Untouched.refl _

theorem State.loadIf_untouched (s : State) (b : Bool) (d r : Reg) : Untouched s (s.loadIf b d r) := by
  unfold State.loadIf; split
  · exact State.load_untouched _ _ _
  · exact Untouched.refl _

theorem State.loadOrSkip_untouched (s : State) (b : Bool) (d r : Reg) : Untouched s (s.loadOrSkip b d r) := by
  unfold State.loadOrSkip; split
  · exact State.load_untouched _ _ _
  · exact State.addTwo_untouched _ _

theorem State.exchangeIf_untouched (s : State) (b : Bool) (d r : Reg) : Untouched s (s.exchangeIf b d r) := by
  unfold State.exchangeIf; split
  · exact State.exchange_untouched _ _ _
  · exact Untouched.refl _

theorem State.loadExchangeOrSkip_untouched (s : State) (b : Bool) (d r : Reg) :
    Untouched s (s.loadExchangeOrSkip b d r) := by
  unfold State.loadExchangeOrSkip; split
  · exact State.loadIncrementExchange_untouched _ _ _
  · exact State.addTwo_untouched _ _

/-- Everything an instruction can do to the machine. -/
inductive Effect (i : Instr) (s t : State) : Prop
  /-- Registers, `H` and the count of free values at most; the instruction is no store. -/
  | quiet : Untouched s t → (∀ a b, i ≠ .sto a b ∧ i ≠ .stob a b ∧ i ≠ .ddsto a b) → Effect i s t
  /-- An exception (R231). -/
  | raise (e : Reason) : t = s.raise e → Effect i s t
  /-- `csrw` (R123). -/
  | csrw (c : Csr) (r : Reg) : i = .csrw c r → t = s.csrWrite c (s.reg r) → Effect i s t
  /-- `sto` (R135). -/
  | sto (d r : Reg) : i = .sto d r → t = s.writeWord .cpu (s.reg d) (s.reg r) → Effect i s t
  /-- `stob` (R136). -/
  | stob (d r : Reg) : i = .stob d r → t = s.writeByte .cpu (s.reg d) (lowByte (s.reg r)) → Effect i s t
  /-- `ddsto` (R137): a word stored from the state in which only the destination has changed. -/
  | ddsto (d r : Reg) (u : State) (v : Word) : i = .ddsto d r → Untouched s u → u.reg d = s.reg d - 2 →
      (∀ q, q ≠ d → u.reg q = s.reg q) → t = u.writeWord .cpu (s.reg d - 2) v → Effect i s t

theorem State.decrementStore_effect (d r : Reg) (s : State) : Effect (.ddsto d r) s (s.decrementStore d r) := by
  unfold State.decrementStore
  dsimp only
  split
  · exact .ddsto d r (s.writeReg d (s.reg d - 2)).drawWord.2 _ rfl
      ((State.writeReg_untouched s d _).trans (State.drawWord_untouched _)) (by simp)
      (fun q hq => by simp [State.writeReg_reg, hq]) rfl
  · exact .ddsto d r (s.writeReg d (s.reg d - 2)) _ rfl (State.writeReg_untouched s d _) (by simp)
      (fun q hq => by simp [State.writeReg_reg, hq]) rfl

/-- The effect of every instruction that gives a next state. -/
theorem exec_effect (i : Instr) (s t : State) (h : exec i s = .next t) : Effect i s t := by
  have optional : ∀ o e, s.ifImplemented o e = .next t → Effect i s e → Effect i s t := by
    intro o e h k
    rcases State.ifImplemented_cases s o e with ⟨_, h'⟩ | ⟨_, h'⟩ <;> rw [h'] at h <;> injection h with h <;> subst h
    · exact k
    · exact .raise _ rfl
  cases i
  case mv d r | csrr d r =>
    exact .quiet (Untouched.of_exec h rfl (State.writeReg_untouched s d _)) (by simp)
  case ldb d r =>
    exact .quiet (Untouched.of_exec h rfl ((State.readByte_untouched s _).trans (State.writeReg_untouched _ d _))) (by simp)
  case exch d r =>
    exact .quiet (Untouched.of_exec h rfl (State.exchange_untouched s d r)) (by simp)
  case ld d r =>
    exact .quiet (Untouched.of_exec h rfl (State.load_untouched s d r)) (by simp)
  case ldis d r =>
    exact .quiet (Untouched.of_exec h rfl (State.loadIncrement_untouched s d r)) (by simp)
  case add d r | sub d r | and d r | or d r | xor d r | not d r | rev d r | inc1 d r | inc2 d r | dec1 d r |
      dec2 d r =>
    exact .quiet (Untouched.of_exec h rfl (State.putResult_untouched s d _ _)) (by simp)
  case cmps d r | cmpu d r =>
    exact .quiet (Untouched.of_exec h rfl (State.putFlags_untouched s _)) (by simp)
  case shl d r | shr d r =>
    exact .quiet (Untouched.of_exec h rfl (State.shiftCarry_putResult_untouched s _ _ d _ _)) (by simp)
  case shra d r =>
    exact .quiet (Untouched.of_exec h rfl (State.shraOverflow_putResult_untouched s _ _ d _ _ _)) (by simp)
  case reti d r =>
    exact .quiet (Untouched.of_exec h rfl (State.returnFromHandler_untouched s)) (by simp)
  case mvnf0 d r | mvnf1 d r | mvnf2 d r | mvnf3 d r | mvnz d r | mvnc d r | mvns d r | mvno d r | mvf0 d r |
      mvf1 d r | mvf2 d r | mvf3 d r | mvz d r | mvc d r | mvs d r | mvo d r =>
    exact .quiet (Untouched.of_exec h rfl (State.moveIf_untouched s _ d r)) (by simp)
  case ldnf0 d r | ldnf1 d r | ldnf2 d r | ldnf3 d r | ldnz d r | ldnc d r | ldns d r | ldno d r | ldf0 d r |
      ldf1 d r | ldf2 d r | ldf3 d r | ldz d r | ldc d r | lds d r | ldo d r =>
    exact .quiet (Untouched.of_exec h rfl (State.loadIf_untouched s _ d r)) (by simp)
  case ldnf0is d r | ldnf1is d r | ldnf2is d r | ldnf3is d r | ldnzis d r | ldncis d r | ldnsis d r | ldnois d r |
      ldf0is d r | ldf1is d r | ldf2is d r | ldf3is d r | ldzis d r | ldcis d r | ldsis d r | ldois d r =>
    exact .quiet (Untouched.of_exec h rfl (State.loadOrSkip_untouched s _ d r)) (by simp)
  case ldisx d r =>
    exact optional _ _ h (.quiet (State.loadIncrementExchange_untouched s d r) (by simp))
  case neg d r =>
    exact optional _ _ h (.quiet (State.putResult_untouched s d _ _) (by simp))
  case mulss d r | mulsu d r | mulus d r | muluu d r =>
    exact optional _ _ h (.quiet (State.putProduct_untouched s d r _ _) (by simp))
  case exchnf0 d r | exchnf1 d r | exchnf2 d r | exchnf3 d r | exchnz d r | exchnc d r | exchns d r | exchno d r |
      exchf0 d r | exchf1 d r | exchf2 d r | exchf3 d r | exchz d r | exchc d r | exchs d r | excho d r =>
    exact optional _ _ h (.quiet (State.exchangeIf_untouched s _ d r) (by simp))
  case ldxnf0is d r | ldxnf1is d r | ldxnf2is d r | ldxnf3is d r | ldxnzis d r | ldxncis d r | ldxnsis d r |
      ldxnois d r | ldxf0is d r | ldxf1is d r | ldxf2is d r | ldxf3is d r | ldxzis d r | ldxcis d r | ldxsis d r |
      ldxois d r =>
    exact optional _ _ h (.quiet (State.loadExchangeOrSkip_untouched s _ d r) (by simp))
  case sto d r => exact .sto d r rfl (Host.Outcome.next.inj h).symm
  case stob d r => exact .stob d r rfl (Host.Outcome.next.inj h).symm
  case csrw c r => exact .csrw c r rfl (Host.Outcome.next.inj h).symm
  case ddsto d r => exact optional _ _ h (State.decrementStore_effect d r s)
  case ill d r => exact .raise .izero (Host.Outcome.next.inj h).symm
  case unassigned22 op d r | unassigned24 op d r | unassigned28 op d r | unassigned30 op d r | unassigned40 op d r |
      unassignedD0 op d r | unassignedE0 op d r =>
    exact .raise .iinstr (Host.Outcome.next.inj h).symm

/-- An instruction that raises a hardware exception does that and nothing else. -/
theorem RaisesException.exec {i : Instr} {s : State} (h : RaisesException s.params i) :
    ∃ e, Sys2Proof.Machine.exec i s = .next (s.raise e) := by
  cases h with
  | ill d r => exact ⟨_, rfl⟩
  | unassigned _ h =>
    cases i
    all_goals first
      | exact ⟨_, rfl⟩
      | exact absurd h (by simp only [Instr.opcode]; decide)
  | optional o _ h hn =>
    have refused : ∀ x, s.ifImplemented o x = .next (s.raise .iinstr) := fun x => if_neg hn
    cases h with
    | ddsto | ldisx | neg | mulss | mulsu | mulus | muluu => exact ⟨_, refused _⟩
    | exchNF c d r hc | ldxNFis c d r hc =>
      simp only [exchFamily, ldxFamily, familyOf, List.range, List.range.loop, List.zipWith, List.mem_cons,
        List.not_mem_nil, or_false] at hc
      rcases hc with rfl | rfl | rfl | rfl | rfl | rfl | rfl | rfl | rfl | rfl | rfl | rfl | rfl | rfl | rfl | rfl <;>
        exact ⟨_, refused _⟩

end Sys2Proof.Machine
end

