-- ==== Sys2Proof/Laws/PerInstr.lean ====
section
/-! SUPPORT. Laws stated instruction by instruction: the two bytes an encoding is made of. -/

namespace Sys2Proof.Laws

/-- The encoding of an instruction holds its opcode in the low byte and its register fields in the high byte (R90). -/
def EncodeOpcode.Statement (i : Instr) : Prop :=
  (encode i).extractLsb' 0 8 = i.opcode ∧ (encode i).extractLsb' 8 8 = i.fields

/-- The two bytes of any encoding. -/
theorem encode_bytes (i : Instr) : EncodeOpcode.Statement i := by
  constructor
  · apply BitVec.eq_of_getLsbD_eq
    intro j hj
    simp only [encode, BitVec.getLsbD_extractLsb', BitVec.getLsbD_append]
    simp [hj]
  · apply BitVec.eq_of_getLsbD_eq
    intro j hj
    simp only [encode, BitVec.getLsbD_extractLsb', BitVec.getLsbD_append]
    simp [hj]

theorem EncodeOpcode.ill (d s : Reg) : EncodeOpcode.Statement (.ill d s) := encode_bytes _
theorem EncodeOpcode.add (d s : Reg) : EncodeOpcode.Statement (.add d s) := encode_bytes _
theorem EncodeOpcode.and (d s : Reg) : EncodeOpcode.Statement (.and d s) := encode_bytes _
theorem EncodeOpcode.csrr (d : Reg) (s : Csr) : EncodeOpcode.Statement (.csrr d s) := encode_bytes _
theorem EncodeOpcode.csrw (d : Csr) (s : Reg) : EncodeOpcode.Statement (.csrw d s) := encode_bytes _
theorem EncodeOpcode.dec1 (d s : Reg) : EncodeOpcode.Statement (.dec1 d s) := encode_bytes _
theorem EncodeOpcode.dec2 (d s : Reg) : EncodeOpcode.Statement (.dec2 d s) := encode_bytes _
theorem EncodeOpcode.exch (d s : Reg) : EncodeOpcode.Statement (.exch d s) := encode_bytes _
theorem EncodeOpcode.inc1 (d s : Reg) : EncodeOpcode.Statement (.inc1 d s) := encode_bytes _
theorem EncodeOpcode.inc2 (d s : Reg) : EncodeOpcode.Statement (.inc2 d s) := encode_bytes _
theorem EncodeOpcode.ld (d s : Reg) : EncodeOpcode.Statement (.ld d s) := encode_bytes _
theorem EncodeOpcode.ldb (d s : Reg) : EncodeOpcode.Statement (.ldb d s) := encode_bytes _
theorem EncodeOpcode.ldis (d s : Reg) : EncodeOpcode.Statement (.ldis d s) := encode_bytes _
theorem EncodeOpcode.ldisx (d s : Reg) : EncodeOpcode.Statement (.ldisx d s) := encode_bytes _
theorem EncodeOpcode.mv (d s : Reg) : EncodeOpcode.Statement (.mv d s) := encode_bytes _
theorem EncodeOpcode.neg (d s : Reg) : EncodeOpcode.Statement (.neg d s) := encode_bytes _
theorem EncodeOpcode.not (d s : Reg) : EncodeOpcode.Statement (.not d s) := encode_bytes _
theorem EncodeOpcode.or (d s : Reg) : EncodeOpcode.Statement (.or d s) := encode_bytes _
theorem EncodeOpcode.shl (d s : Reg) : EncodeOpcode.Statement (.shl d s) := encode_bytes _
theorem EncodeOpcode.shr (d s : Reg) : EncodeOpcode.Statement (.shr d s) := encode_bytes _
theorem EncodeOpcode.shra (d s : Reg) : EncodeOpcode.Statement (.shra d s) := encode_bytes _
theorem EncodeOpcode.sto (d s : Reg) : EncodeOpcode.Statement (.sto d s) := encode_bytes _
theorem EncodeOpcode.stob (d s : Reg) : EncodeOpcode.Statement (.stob d s) := encode_bytes _
theorem EncodeOpcode.ddsto (d s : Reg) : EncodeOpcode.Statement (.ddsto d s) := encode_bytes _
theorem EncodeOpcode.sub (d s : Reg) : EncodeOpcode.Statement (.sub d s) := encode_bytes _
theorem EncodeOpcode.cmpu (d s : Reg) : EncodeOpcode.Statement (.cmpu d s) := encode_bytes _
theorem EncodeOpcode.xor (d s : Reg) : EncodeOpcode.Statement (.xor d s) := encode_bytes _
theorem EncodeOpcode.cmps (d s : Reg) : EncodeOpcode.Statement (.cmps d s) := encode_bytes _
theorem EncodeOpcode.reti (d s : Reg) : EncodeOpcode.Statement (.reti d s) := encode_bytes _
theorem EncodeOpcode.rev (d s : Reg) : EncodeOpcode.Statement (.rev d s) := encode_bytes _
theorem EncodeOpcode.mulss (d s : Reg) : EncodeOpcode.Statement (.mulss d s) := encode_bytes _
theorem EncodeOpcode.mulsu (d s : Reg) : EncodeOpcode.Statement (.mulsu d s) := encode_bytes _
theorem EncodeOpcode.mulus (d s : Reg) : EncodeOpcode.Statement (.mulus d s) := encode_bytes _
theorem EncodeOpcode.muluu (d s : Reg) : EncodeOpcode.Statement (.muluu d s) := encode_bytes _
theorem EncodeOpcode.exchnf0 (d s : Reg) : EncodeOpcode.Statement (.exchnf0 d s) := encode_bytes _
theorem EncodeOpcode.exchnf1 (d s : Reg) : EncodeOpcode.Statement (.exchnf1 d s) := encode_bytes _
theorem EncodeOpcode.exchnf2 (d s : Reg) : EncodeOpcode.Statement (.exchnf2 d s) := encode_bytes _
theorem EncodeOpcode.exchnf3 (d s : Reg) : EncodeOpcode.Statement (.exchnf3 d s) := encode_bytes _
theorem EncodeOpcode.exchnz (d s : Reg) : EncodeOpcode.Statement (.exchnz d s) := encode_bytes _
theorem EncodeOpcode.exchnc (d s : Reg) : EncodeOpcode.Statement (.exchnc d s) := encode_bytes _
theorem EncodeOpcode.exchns (d s : Reg) : EncodeOpcode.Statement (.exchns d s) := encode_bytes _
theorem EncodeOpcode.exchno (d s : Reg) : EncodeOpcode.Statement (.exchno d s) := encode_bytes _
theorem EncodeOpcode.exchf0 (d s : Reg) : EncodeOpcode.Statement (.exchf0 d s) := encode_bytes _
theorem EncodeOpcode.exchf1 (d s : Reg) : EncodeOpcode.Statement (.exchf1 d s) := encode_bytes _
theorem EncodeOpcode.exchf2 (d s : Reg) : EncodeOpcode.Statement (.exchf2 d s) := encode_bytes _
theorem EncodeOpcode.exchf3 (d s : Reg) : EncodeOpcode.Statement (.exchf3 d s) := encode_bytes _
theorem EncodeOpcode.exchz (d s : Reg) : EncodeOpcode.Statement (.exchz d s) := encode_bytes _
theorem EncodeOpcode.exchc (d s : Reg) : EncodeOpcode.Statement (.exchc d s) := encode_bytes _
theorem EncodeOpcode.exchs (d s : Reg) : EncodeOpcode.Statement (.exchs d s) := encode_bytes _
theorem EncodeOpcode.excho (d s : Reg) : EncodeOpcode.Statement (.excho d s) := encode_bytes _
theorem EncodeOpcode.ldnf0 (d s : Reg) : EncodeOpcode.Statement (.ldnf0 d s) := encode_bytes _
theorem EncodeOpcode.ldnf1 (d s : Reg) : EncodeOpcode.Statement (.ldnf1 d s) := encode_bytes _
theorem EncodeOpcode.ldnf2 (d s : Reg) : EncodeOpcode.Statement (.ldnf2 d s) := encode_bytes _
theorem EncodeOpcode.ldnf3 (d s : Reg) : EncodeOpcode.Statement (.ldnf3 d s) := encode_bytes _
theorem EncodeOpcode.ldnz (d s : Reg) : EncodeOpcode.Statement (.ldnz d s) := encode_bytes _
theorem EncodeOpcode.ldnc (d s : Reg) : EncodeOpcode.Statement (.ldnc d s) := encode_bytes _
theorem EncodeOpcode.ldns (d s : Reg) : EncodeOpcode.Statement (.ldns d s) := encode_bytes _
theorem EncodeOpcode.ldno (d s : Reg) : EncodeOpcode.Statement (.ldno d s) := encode_bytes _
theorem EncodeOpcode.ldf0 (d s : Reg) : EncodeOpcode.Statement (.ldf0 d s) := encode_bytes _
theorem EncodeOpcode.ldf1 (d s : Reg) : EncodeOpcode.Statement (.ldf1 d s) := encode_bytes _
theorem EncodeOpcode.ldf2 (d s : Reg) : EncodeOpcode.Statement (.ldf2 d s) := encode_bytes _
theorem EncodeOpcode.ldf3 (d s : Reg) : EncodeOpcode.Statement (.ldf3 d s) := encode_bytes _
theorem EncodeOpcode.ldz (d s : Reg) : EncodeOpcode.Statement (.ldz d s) := encode_bytes _
theorem EncodeOpcode.ldc (d s : Reg) : EncodeOpcode.Statement (.ldc d s) := encode_bytes _
theorem EncodeOpcode.lds (d s : Reg) : EncodeOpcode.Statement (.lds d s) := encode_bytes _
theorem EncodeOpcode.ldo (d s : Reg) : EncodeOpcode.Statement (.ldo d s) := encode_bytes _
theorem EncodeOpcode.ldnf0is (d s : Reg) : EncodeOpcode.Statement (.ldnf0is d s) := encode_bytes _
theorem EncodeOpcode.ldnf1is (d s : Reg) : EncodeOpcode.Statement (.ldnf1is d s) := encode_bytes _
theorem EncodeOpcode.ldnf2is (d s : Reg) : EncodeOpcode.Statement (.ldnf2is d s) := encode_bytes _
theorem EncodeOpcode.ldnf3is (d s : Reg) : EncodeOpcode.Statement (.ldnf3is d s) := encode_bytes _
theorem EncodeOpcode.ldnzis (d s : Reg) : EncodeOpcode.Statement (.ldnzis d s) := encode_bytes _
theorem EncodeOpcode.ldncis (d s : Reg) : EncodeOpcode.Statement (.ldncis d s) := encode_bytes _
theorem EncodeOpcode.ldnsis (d s : Reg) : EncodeOpcode.Statement (.ldnsis d s) := encode_bytes _
theorem EncodeOpcode.ldnois (d s : Reg) : EncodeOpcode.Statement (.ldnois d s) := encode_bytes _
theorem EncodeOpcode.ldf0is (d s : Reg) : EncodeOpcode.Statement (.ldf0is d s) := encode_bytes _
theorem EncodeOpcode.ldf1is (d s : Reg) : EncodeOpcode.Statement (.ldf1is d s) := encode_bytes _
theorem EncodeOpcode.ldf2is (d s : Reg) : EncodeOpcode.Statement (.ldf2is d s) := encode_bytes _
theorem EncodeOpcode.ldf3is (d s : Reg) : EncodeOpcode.Statement (.ldf3is d s) := encode_bytes _
theorem EncodeOpcode.ldzis (d s : Reg) : EncodeOpcode.Statement (.ldzis d s) := encode_bytes _
theorem EncodeOpcode.ldcis (d s : Reg) : EncodeOpcode.Statement (.ldcis d s) := encode_bytes _
theorem EncodeOpcode.ldsis (d s : Reg) : EncodeOpcode.Statement (.ldsis d s) := encode_bytes _
theorem EncodeOpcode.ldois (d s : Reg) : EncodeOpcode.Statement (.ldois d s) := encode_bytes _
theorem EncodeOpcode.ldxnf0is (d s : Reg) : EncodeOpcode.Statement (.ldxnf0is d s) := encode_bytes _
theorem EncodeOpcode.ldxnf1is (d s : Reg) : EncodeOpcode.Statement (.ldxnf1is d s) := encode_bytes _
theorem EncodeOpcode.ldxnf2is (d s : Reg) : EncodeOpcode.Statement (.ldxnf2is d s) := encode_bytes _
theorem EncodeOpcode.ldxnf3is (d s : Reg) : EncodeOpcode.Statement (.ldxnf3is d s) := encode_bytes _
theorem EncodeOpcode.ldxnzis (d s : Reg) : EncodeOpcode.Statement (.ldxnzis d s) := encode_bytes _
theorem EncodeOpcode.ldxncis (d s : Reg) : EncodeOpcode.Statement (.ldxncis d s) := encode_bytes _
theorem EncodeOpcode.ldxnsis (d s : Reg) : EncodeOpcode.Statement (.ldxnsis d s) := encode_bytes _
theorem EncodeOpcode.ldxnois (d s : Reg) : EncodeOpcode.Statement (.ldxnois d s) := encode_bytes _
theorem EncodeOpcode.ldxf0is (d s : Reg) : EncodeOpcode.Statement (.ldxf0is d s) := encode_bytes _
theorem EncodeOpcode.ldxf1is (d s : Reg) : EncodeOpcode.Statement (.ldxf1is d s) := encode_bytes _
theorem EncodeOpcode.ldxf2is (d s : Reg) : EncodeOpcode.Statement (.ldxf2is d s) := encode_bytes _
theorem EncodeOpcode.ldxf3is (d s : Reg) : EncodeOpcode.Statement (.ldxf3is d s) := encode_bytes _
theorem EncodeOpcode.ldxzis (d s : Reg) : EncodeOpcode.Statement (.ldxzis d s) := encode_bytes _
theorem EncodeOpcode.ldxcis (d s : Reg) : EncodeOpcode.Statement (.ldxcis d s) := encode_bytes _
theorem EncodeOpcode.ldxsis (d s : Reg) : EncodeOpcode.Statement (.ldxsis d s) := encode_bytes _
theorem EncodeOpcode.ldxois (d s : Reg) : EncodeOpcode.Statement (.ldxois d s) := encode_bytes _
theorem EncodeOpcode.mvnf0 (d s : Reg) : EncodeOpcode.Statement (.mvnf0 d s) := encode_bytes _
theorem EncodeOpcode.mvnf1 (d s : Reg) : EncodeOpcode.Statement (.mvnf1 d s) := encode_bytes _
theorem EncodeOpcode.mvnf2 (d s : Reg) : EncodeOpcode.Statement (.mvnf2 d s) := encode_bytes _
theorem EncodeOpcode.mvnf3 (d s : Reg) : EncodeOpcode.Statement (.mvnf3 d s) := encode_bytes _
theorem EncodeOpcode.mvnz (d s : Reg) : EncodeOpcode.Statement (.mvnz d s) := encode_bytes _
theorem EncodeOpcode.mvnc (d s : Reg) : EncodeOpcode.Statement (.mvnc d s) := encode_bytes _
theorem EncodeOpcode.mvns (d s : Reg) : EncodeOpcode.Statement (.mvns d s) := encode_bytes _
theorem EncodeOpcode.mvno (d s : Reg) : EncodeOpcode.Statement (.mvno d s) := encode_bytes _
theorem EncodeOpcode.mvf0 (d s : Reg) : EncodeOpcode.Statement (.mvf0 d s) := encode_bytes _
theorem EncodeOpcode.mvf1 (d s : Reg) : EncodeOpcode.Statement (.mvf1 d s) := encode_bytes _
theorem EncodeOpcode.mvf2 (d s : Reg) : EncodeOpcode.Statement (.mvf2 d s) := encode_bytes _
theorem EncodeOpcode.mvf3 (d s : Reg) : EncodeOpcode.Statement (.mvf3 d s) := encode_bytes _
theorem EncodeOpcode.mvz (d s : Reg) : EncodeOpcode.Statement (.mvz d s) := encode_bytes _
theorem EncodeOpcode.mvc (d s : Reg) : EncodeOpcode.Statement (.mvc d s) := encode_bytes _
theorem EncodeOpcode.mvs (d s : Reg) : EncodeOpcode.Statement (.mvs d s) := encode_bytes _
theorem EncodeOpcode.mvo (d s : Reg) : EncodeOpcode.Statement (.mvo d s) := encode_bytes _
theorem EncodeOpcode.unassigned22 (op : Byte) (d s : Reg) : EncodeOpcode.Statement (.unassigned22 op d s) := encode_bytes _
theorem EncodeOpcode.unassigned24 (op : Byte) (d s : Reg) : EncodeOpcode.Statement (.unassigned24 op d s) := encode_bytes _
theorem EncodeOpcode.unassigned28 (op : Byte) (d s : Reg) : EncodeOpcode.Statement (.unassigned28 op d s) := encode_bytes _
theorem EncodeOpcode.unassigned30 (op : Byte) (d s : Reg) : EncodeOpcode.Statement (.unassigned30 op d s) := encode_bytes _
theorem EncodeOpcode.unassigned40 (op : Byte) (d s : Reg) : EncodeOpcode.Statement (.unassigned40 op d s) := encode_bytes _
theorem EncodeOpcode.unassignedD0 (op : Byte) (d s : Reg) : EncodeOpcode.Statement (.unassignedD0 op d s) := encode_bytes _
theorem EncodeOpcode.unassignedE0 (op : Byte) (d s : Reg) : EncodeOpcode.Statement (.unassignedE0 op d s) := encode_bytes _

end Sys2Proof.Laws
end

