-- ==== Sys2Proof/Tests/Slice0.lean ====
section
/-! SUPPORT. Tests of the model. Expected results are the spec's own vectors (95_test_vectors.md, V1 to V14) or its opcode
table, worked out there from the rules. -/

namespace Sys2Proof.Tests

open Sys2Proof.Machine

/-! ## WellFormed refuses an opcode byte outside its row (R203) -/

theorem test_wf_unassigned22 : Instr.wf (.unassigned22 0x24 .r0 .r0) = false := by decide
theorem test_wf_unassigned24 : Instr.wf (.unassigned24 0x28 .r0 .r0) = false := by decide
theorem test_wf_unassigned28 : Instr.wf (.unassigned28 0x27 .r0 .r0) = false := by decide
theorem test_wf_unassigned30 : Instr.wf (.unassigned30 0x40 .r0 .r0) = false := by decide
theorem test_wf_unassigned40 : Instr.wf (.unassigned40 0x80 .r0 .r0) = false := by decide
theorem test_wf_unassignedD0 : Instr.wf (.unassignedD0 0xe0 .r0 .r0) = false := by decide
theorem test_wf_unassignedE0 : Instr.wf (.unassignedE0 0xdf .r0 .r0) = false := by decide

/-! ## Decoding: DSTR, SRCR, OPCODE written out from spec/opcode_table.json, bits 15 to 0 (R90) -/

theorem test_decode_ill : decodeTableWord 16 0b0001001000000000 = some (.ill .r1 .r2) := by decide
theorem test_decode_add : decodeTableWord 16 0b0110010100000001 = some (.add .r6 .r5) := by decide
theorem test_decode_and : decodeTableWord 16 0b1011100000000010 = some (.and .sp .r8) := by decide
theorem test_decode_csrr : decodeTableWord 16 0b0000101100000011 = some (.csrr .r0 .csr11) := by decide
theorem test_decode_csrw : decodeTableWord 16 0b0101111000000100 = some (.csrw .csr5 .f) := by decide
theorem test_decode_dec1 : decodeTableWord 16 0b1010000100000101 = some (.dec1 .r10 .r1) := by decide
theorem test_decode_dec2 : decodeTableWord 16 0b1111010000000110 = some (.dec2 .pc .r4) := by decide
theorem test_decode_exch : decodeTableWord 16 0b0100011100000111 = some (.exch .r4 .r7) := by decide
theorem test_decode_inc1 : decodeTableWord 16 0b1001101000001000 = some (.inc1 .r9 .r10) := by decide
theorem test_decode_inc2 : decodeTableWord 16 0b1110110100001001 = some (.inc2 .f .ia) := by decide
theorem test_decode_ld : decodeTableWord 16 0b0011000000001010 = some (.ld .r3 .r0) := by decide
theorem test_decode_ldb : decodeTableWord 16 0b1000001100001011 = some (.ldb .r8 .r3) := by decide
theorem test_decode_ldis : decodeTableWord 16 0b1101011000001100 = some (.ldis .ia .r6) := by decide
theorem test_decode_ldisx : decodeTableWord 16 0b0010100100001101 = some (.ldisx .r2 .r9) := by decide
theorem test_decode_mv : decodeTableWord 16 0b0111110000001110 = some (.mv .r7 .ca) := by decide
theorem test_decode_neg : decodeTableWord 16 0b1100111100001111 = some (.neg .ca .pc) := by decide
theorem test_decode_not : decodeTableWord 16 0b0001001000010000 = some (.not .r1 .r2) := by decide
theorem test_decode_or : decodeTableWord 16 0b0110010100010001 = some (.or .r6 .r5) := by decide
theorem test_decode_shl : decodeTableWord 16 0b1011100000010010 = some (.shl .sp .r8) := by decide
theorem test_decode_shr : decodeTableWord 16 0b0000101100010011 = some (.shr .r0 .sp) := by decide
theorem test_decode_shra : decodeTableWord 16 0b0101111000010100 = some (.shra .r5 .f) := by decide
theorem test_decode_sto : decodeTableWord 16 0b1010000100010101 = some (.sto .r10 .r1) := by decide
theorem test_decode_stob : decodeTableWord 16 0b1111010000010110 = some (.stob .pc .r4) := by decide
theorem test_decode_ddsto : decodeTableWord 16 0b0100011100010111 = some (.ddsto .r4 .r7) := by decide
theorem test_decode_sub : decodeTableWord 16 0b1001101000011000 = some (.sub .r9 .r10) := by decide
theorem test_decode_cmpu : decodeTableWord 16 0b1110110100011001 = some (.cmpu .f .ia) := by decide
theorem test_decode_xor : decodeTableWord 16 0b0011000000011010 = some (.xor .r3 .r0) := by decide
theorem test_decode_cmps : decodeTableWord 16 0b1000001100011011 = some (.cmps .r8 .r3) := by decide
theorem test_decode_reti : decodeTableWord 16 0b1101011000011100 = some (.reti .ia .r6) := by decide
theorem test_decode_rev : decodeTableWord 16 0b0010100100011101 = some (.rev .r2 .r9) := by decide
theorem test_decode_mulss : decodeTableWord 16 0b0111110000011110 = some (.mulss .r7 .ca) := by decide
theorem test_decode_mulsu : decodeTableWord 16 0b1100111100011111 = some (.mulsu .ca .pc) := by decide
theorem test_decode_mulus : decodeTableWord 16 0b0001001000100000 = some (.mulus .r1 .r2) := by decide
theorem test_decode_muluu : decodeTableWord 16 0b0110010100100001 = some (.muluu .r6 .r5) := by decide
theorem test_decode_exchnf0 : decodeTableWord 16 0b1011100010000000 = some (.exchnf0 .sp .r8) := by decide
theorem test_decode_exchnf1 : decodeTableWord 16 0b0000101110000001 = some (.exchnf1 .r0 .sp) := by decide
theorem test_decode_exchnf2 : decodeTableWord 16 0b0101111010000010 = some (.exchnf2 .r5 .f) := by decide
theorem test_decode_exchnf3 : decodeTableWord 16 0b1010000110000011 = some (.exchnf3 .r10 .r1) := by decide
theorem test_decode_exchnz : decodeTableWord 16 0b1111010010000100 = some (.exchnz .pc .r4) := by decide
theorem test_decode_exchnc : decodeTableWord 16 0b0100011110000101 = some (.exchnc .r4 .r7) := by decide
theorem test_decode_exchns : decodeTableWord 16 0b1001101010000110 = some (.exchns .r9 .r10) := by decide
theorem test_decode_exchno : decodeTableWord 16 0b1110110110000111 = some (.exchno .f .ia) := by decide
theorem test_decode_exchf0 : decodeTableWord 16 0b0011000010001000 = some (.exchf0 .r3 .r0) := by decide
theorem test_decode_exchf1 : decodeTableWord 16 0b1000001110001001 = some (.exchf1 .r8 .r3) := by decide
theorem test_decode_exchf2 : decodeTableWord 16 0b1101011010001010 = some (.exchf2 .ia .r6) := by decide
theorem test_decode_exchf3 : decodeTableWord 16 0b0010100110001011 = some (.exchf3 .r2 .r9) := by decide
theorem test_decode_exchz : decodeTableWord 16 0b0111110010001100 = some (.exchz .r7 .ca) := by decide
theorem test_decode_exchc : decodeTableWord 16 0b1100111110001101 = some (.exchc .ca .pc) := by decide
theorem test_decode_exchs : decodeTableWord 16 0b0001001010001110 = some (.exchs .r1 .r2) := by decide
theorem test_decode_excho : decodeTableWord 16 0b0110010110001111 = some (.excho .r6 .r5) := by decide
theorem test_decode_ldnf0 : decodeTableWord 16 0b1011100010010000 = some (.ldnf0 .sp .r8) := by decide
theorem test_decode_ldnf1 : decodeTableWord 16 0b0000101110010001 = some (.ldnf1 .r0 .sp) := by decide
theorem test_decode_ldnf2 : decodeTableWord 16 0b0101111010010010 = some (.ldnf2 .r5 .f) := by decide
theorem test_decode_ldnf3 : decodeTableWord 16 0b1010000110010011 = some (.ldnf3 .r10 .r1) := by decide
theorem test_decode_ldnz : decodeTableWord 16 0b1111010010010100 = some (.ldnz .pc .r4) := by decide
theorem test_decode_ldnc : decodeTableWord 16 0b0100011110010101 = some (.ldnc .r4 .r7) := by decide
theorem test_decode_ldns : decodeTableWord 16 0b1001101010010110 = some (.ldns .r9 .r10) := by decide
theorem test_decode_ldno : decodeTableWord 16 0b1110110110010111 = some (.ldno .f .ia) := by decide
theorem test_decode_ldf0 : decodeTableWord 16 0b0011000010011000 = some (.ldf0 .r3 .r0) := by decide
theorem test_decode_ldf1 : decodeTableWord 16 0b1000001110011001 = some (.ldf1 .r8 .r3) := by decide
theorem test_decode_ldf2 : decodeTableWord 16 0b1101011010011010 = some (.ldf2 .ia .r6) := by decide
theorem test_decode_ldf3 : decodeTableWord 16 0b0010100110011011 = some (.ldf3 .r2 .r9) := by decide
theorem test_decode_ldz : decodeTableWord 16 0b0111110010011100 = some (.ldz .r7 .ca) := by decide
theorem test_decode_ldc : decodeTableWord 16 0b1100111110011101 = some (.ldc .ca .pc) := by decide
theorem test_decode_lds : decodeTableWord 16 0b0001001010011110 = some (.lds .r1 .r2) := by decide
theorem test_decode_ldo : decodeTableWord 16 0b0110010110011111 = some (.ldo .r6 .r5) := by decide
theorem test_decode_ldnf0is : decodeTableWord 16 0b1011100010100000 = some (.ldnf0is .sp .r8) := by decide
theorem test_decode_ldnf1is : decodeTableWord 16 0b0000101110100001 = some (.ldnf1is .r0 .sp) := by decide
theorem test_decode_ldnf2is : decodeTableWord 16 0b0101111010100010 = some (.ldnf2is .r5 .f) := by decide
theorem test_decode_ldnf3is : decodeTableWord 16 0b1010000110100011 = some (.ldnf3is .r10 .r1) := by decide
theorem test_decode_ldnzis : decodeTableWord 16 0b1111010010100100 = some (.ldnzis .pc .r4) := by decide
theorem test_decode_ldncis : decodeTableWord 16 0b0100011110100101 = some (.ldncis .r4 .r7) := by decide
theorem test_decode_ldnsis : decodeTableWord 16 0b1001101010100110 = some (.ldnsis .r9 .r10) := by decide
theorem test_decode_ldnois : decodeTableWord 16 0b1110110110100111 = some (.ldnois .f .ia) := by decide
theorem test_decode_ldf0is : decodeTableWord 16 0b0011000010101000 = some (.ldf0is .r3 .r0) := by decide
theorem test_decode_ldf1is : decodeTableWord 16 0b1000001110101001 = some (.ldf1is .r8 .r3) := by decide
theorem test_decode_ldf2is : decodeTableWord 16 0b1101011010101010 = some (.ldf2is .ia .r6) := by decide
theorem test_decode_ldf3is : decodeTableWord 16 0b0010100110101011 = some (.ldf3is .r2 .r9) := by decide
theorem test_decode_ldzis : decodeTableWord 16 0b0111110010101100 = some (.ldzis .r7 .ca) := by decide
theorem test_decode_ldcis : decodeTableWord 16 0b1100111110101101 = some (.ldcis .ca .pc) := by decide
theorem test_decode_ldsis : decodeTableWord 16 0b0001001010101110 = some (.ldsis .r1 .r2) := by decide
theorem test_decode_ldois : decodeTableWord 16 0b0110010110101111 = some (.ldois .r6 .r5) := by decide
theorem test_decode_ldxnf0is : decodeTableWord 16 0b1011100010110000 = some (.ldxnf0is .sp .r8) := by decide
theorem test_decode_ldxnf1is : decodeTableWord 16 0b0000101110110001 = some (.ldxnf1is .r0 .sp) := by decide
theorem test_decode_ldxnf2is : decodeTableWord 16 0b0101111010110010 = some (.ldxnf2is .r5 .f) := by decide
theorem test_decode_ldxnf3is : decodeTableWord 16 0b1010000110110011 = some (.ldxnf3is .r10 .r1) := by decide
theorem test_decode_ldxnzis : decodeTableWord 16 0b1111010010110100 = some (.ldxnzis .pc .r4) := by decide
theorem test_decode_ldxncis : decodeTableWord 16 0b0100011110110101 = some (.ldxncis .r4 .r7) := by decide
theorem test_decode_ldxnsis : decodeTableWord 16 0b1001101010110110 = some (.ldxnsis .r9 .r10) := by decide
theorem test_decode_ldxnois : decodeTableWord 16 0b1110110110110111 = some (.ldxnois .f .ia) := by decide
theorem test_decode_ldxf0is : decodeTableWord 16 0b0011000010111000 = some (.ldxf0is .r3 .r0) := by decide
theorem test_decode_ldxf1is : decodeTableWord 16 0b1000001110111001 = some (.ldxf1is .r8 .r3) := by decide
theorem test_decode_ldxf2is : decodeTableWord 16 0b1101011010111010 = some (.ldxf2is .ia .r6) := by decide
theorem test_decode_ldxf3is : decodeTableWord 16 0b0010100110111011 = some (.ldxf3is .r2 .r9) := by decide
theorem test_decode_ldxzis : decodeTableWord 16 0b0111110010111100 = some (.ldxzis .r7 .ca) := by decide
theorem test_decode_ldxcis : decodeTableWord 16 0b1100111110111101 = some (.ldxcis .ca .pc) := by decide
theorem test_decode_ldxsis : decodeTableWord 16 0b0001001010111110 = some (.ldxsis .r1 .r2) := by decide
theorem test_decode_ldxois : decodeTableWord 16 0b0110010110111111 = some (.ldxois .r6 .r5) := by decide
theorem test_decode_mvnf0 : decodeTableWord 16 0b1011100011000000 = some (.mvnf0 .sp .r8) := by decide
theorem test_decode_mvnf1 : decodeTableWord 16 0b0000101111000001 = some (.mvnf1 .r0 .sp) := by decide
theorem test_decode_mvnf2 : decodeTableWord 16 0b0101111011000010 = some (.mvnf2 .r5 .f) := by decide
theorem test_decode_mvnf3 : decodeTableWord 16 0b1010000111000011 = some (.mvnf3 .r10 .r1) := by decide
theorem test_decode_mvnz : decodeTableWord 16 0b1111010011000100 = some (.mvnz .pc .r4) := by decide
theorem test_decode_mvnc : decodeTableWord 16 0b0100011111000101 = some (.mvnc .r4 .r7) := by decide
theorem test_decode_mvns : decodeTableWord 16 0b1001101011000110 = some (.mvns .r9 .r10) := by decide
theorem test_decode_mvno : decodeTableWord 16 0b1110110111000111 = some (.mvno .f .ia) := by decide
theorem test_decode_mvf0 : decodeTableWord 16 0b0011000011001000 = some (.mvf0 .r3 .r0) := by decide
theorem test_decode_mvf1 : decodeTableWord 16 0b1000001111001001 = some (.mvf1 .r8 .r3) := by decide
theorem test_decode_mvf2 : decodeTableWord 16 0b1101011011001010 = some (.mvf2 .ia .r6) := by decide
theorem test_decode_mvf3 : decodeTableWord 16 0b0010100111001011 = some (.mvf3 .r2 .r9) := by decide
theorem test_decode_mvz : decodeTableWord 16 0b0111110011001100 = some (.mvz .r7 .ca) := by decide
theorem test_decode_mvc : decodeTableWord 16 0b1100111111001101 = some (.mvc .ca .pc) := by decide
theorem test_decode_mvs : decodeTableWord 16 0b0001001011001110 = some (.mvs .r1 .r2) := by decide
theorem test_decode_mvo : decodeTableWord 16 0b0110010111001111 = some (.mvo .r6 .r5) := by decide
theorem test_decode_unassigned22_low : decodeTableWord 16 0b1011100000100010 = some (.unassigned22 0x22 .sp .r8) := by decide
theorem test_decode_unassigned22_high : decodeTableWord 16 0b1011100000100011 = some (.unassigned22 0x23 .sp .r8) := by decide
theorem test_decode_unassigned24_low : decodeTableWord 16 0b0000101100100100 = some (.unassigned24 0x24 .r0 .sp) := by decide
theorem test_decode_unassigned24_high : decodeTableWord 16 0b0000101100100111 = some (.unassigned24 0x27 .r0 .sp) := by decide
theorem test_decode_unassigned28_low : decodeTableWord 16 0b0101111000101000 = some (.unassigned28 0x28 .r5 .f) := by decide
theorem test_decode_unassigned28_high : decodeTableWord 16 0b0101111000101111 = some (.unassigned28 0x2f .r5 .f) := by decide
theorem test_decode_unassigned30_low : decodeTableWord 16 0b1010000100110000 = some (.unassigned30 0x30 .r10 .r1) := by decide
theorem test_decode_unassigned30_high : decodeTableWord 16 0b1010000100111111 = some (.unassigned30 0x3f .r10 .r1) := by decide
theorem test_decode_unassigned40_low : decodeTableWord 16 0b1111010001000000 = some (.unassigned40 0x40 .pc .r4) := by decide
theorem test_decode_unassigned40_high : decodeTableWord 16 0b1111010001111111 = some (.unassigned40 0x7f .pc .r4) := by decide
theorem test_decode_unassignedD0_low : decodeTableWord 16 0b0100011111010000 = some (.unassignedD0 0xd0 .r4 .r7) := by decide
theorem test_decode_unassignedD0_high : decodeTableWord 16 0b0100011111011111 = some (.unassignedD0 0xdf .r4 .r7) := by decide
theorem test_decode_unassignedE0_low : decodeTableWord 16 0b1001101011100000 = some (.unassignedE0 0xe0 .r9 .r10) := by decide
theorem test_decode_unassignedE0_high : decodeTableWord 16 0b1001101011111111 = some (.unassignedE0 0xff .r9 .r10) := by decide
theorem test_decode_too_short : decode [0x01] = .error .tooShort := rfl
theorem test_decode_rest : decode [0x0c, 0x1f, 0x34, 0x12] = .ok (.ldis .r1 .pc, [0x34, 0x12]) := rfl
theorem test_encode_bytes : encodeBytes (.sto .sp .ca) = [0x15, 0xbc] := by decide

/-! ## One instruction on a small state -/

/-- The reset state with some registers and some bytes of RAM given. -/
def given (rs : List (Reg × Word)) (m : Memory) : State :=
  rs.foldl (fun s p => s.putReg p.1 p.2) (State.reset.putMem m)

/-- Every optional instruction implemented (R5). -/
def allImplemented (s : State) : State :=
  { s with params := { s.params with implemented := [.ddsto, .exchNF, .ldisx, .ldxNFis, .mulss, .mulsu, .mulus, .muluu, .neg] } }

/-- What `g` shows of the next state. -/
def shows {α : Type} (o : Out) (g : State → α) : Option α :=
  match o with
  | .next t => some (g t)
  | .fault _ => none
  | .refused _ => none

/-- The flags `z`, `c`, `s`, `o` of a state (R29). -/
def zcso (s : State) : Bool × Bool × Bool × Bool :=
  (s.f.getLsbD 4, s.f.getLsbD 5, s.f.getLsbD 6, s.f.getLsbD 7)

/-- V5. -/
theorem test_add : shows (exec (.add .r1 .r2) (given [(.r1, 0x8000), (.r2, 0xffff)] [])) (fun t => (t.reg .r1, zcso t)) = some (0x7fff, (false, true, false, true)) := by decide
/-- V5: a relative jump. -/
theorem test_add_pc : shows (exec (.add .pc .r2) (given [(.pc, 0x0012), (.r2, 0x0004)] [])) (fun t => t.pc) = some 0x0016 := by decide
/-- V5. -/
theorem test_sub : shows (exec (.sub .r1 .r2) (given [(.r1, 0x7fff), (.r2, 0xffff)] [])) (fun t => (t.reg .r1, zcso t)) = some (0x8000, (false, true, true, true)) := by decide
/-- V5: both fields the same register. -/
theorem test_sub_same : shows (exec (.sub .r1 .r1) (given [(.r1, 0x1234), (.f, 0x00e0)] [])) (fun t => (t.reg .r1, t.f)) = some (0x0000, 0x0010) := by decide
/-- V6. -/
theorem test_cmps : shows (exec (.cmps .r1 .r2) (given [(.r1, 0x8000), (.r2, 0x7fff)] [])) (fun t => (t.reg .r1, zcso t)) = some (0x8000, (false, true, true, false)) := by decide
/-- V6: `f` as first operand, flags written (D9). -/
theorem test_cmps_f : shows (exec (.cmps .f .r1) (given [(.f, 0x8000), (.r1, 0x0001)] [])) (fun t => t.f) = some 0x8060 := by decide
/-- V6. -/
theorem test_cmpu : shows (exec (.cmpu .r1 .r2) (given [(.r1, 0x8000), (.r2, 0x7fff)] [])) (fun t => zcso t) = some (false, false, false, false) := by decide
/-- V6. -/
theorem test_cmpu_f : shows (exec (.cmpu .f .r1) (given [(.f, 0x0100), (.r1, 0x0100)] [])) (fun t => t.f) = some 0x0130 := by decide
/-- V7. -/
theorem test_and : shows (exec (.and .r1 .r2) (given [(.r1, 0xff00), (.r2, 0x0ff0)] [])) (fun t => (t.reg .r1, zcso t)) = some (0x0f00, (false, false, false, false)) := by decide
/-- V7: the stored value overrides the flags, `H` kept. -/
theorem test_and_f : shows (exec (.and .f .r1) ((given [(.f, 0x0c30), (.r1, 0xfbff)] []).putCsr0 0x0100)) (fun t => (t.f, t.csrs.csr0)) = some (0x0830, 0x0100) := by decide
/-- V7. -/
theorem test_or : shows (exec (.or .r1 .r2) (given [(.r1, 0xaaaa), (.r2, 0x5555)] [])) (fun t => (t.reg .r1, zcso t)) = some (0xffff, (false, false, true, false)) := by decide
/-- V7: a software interrupt clears `H` (R241). -/
theorem test_or_f : shows (exec (.or .f .r1) ((given [(.f, 0x0110), (.r1, 0x0400)] []).putCsr0 0x0100)) (fun t => (t.f, t.csrs.csr0)) = some (0x0510, 0x0000) := by decide
/-- V7. -/
theorem test_xor : shows (exec (.xor .r1 .r2) (given [(.r1, 0x1234), (.r2, 0xffff)] [])) (fun t => (t.reg .r1, zcso t)) = some (0xedcb, (false, false, true, false)) := by decide
/-- V7. -/
theorem test_xor_f : shows (exec (.xor .f .f) (given [(.f, 0x01f0)] [])) (fun t => t.f) = some 0x0000 := by decide
/-- V7. -/
theorem test_not : shows (exec (.not .r1 .r2) (given [(.r1, 0x9999), (.r2, 0x00ff)] [])) (fun t => (t.reg .r1, t.reg .r2, zcso t)) = some (0xff00, 0x00ff, (false, false, true, false)) := by decide
/-- V7. -/
theorem test_rev : shows (exec (.rev .r1 .r2) (given [(.r1, 0x9999), (.r2, 0x1234)] [])) (fun t => (t.reg .r1, t.reg .r2, zcso t)) = some (0x2c48, 0x1234, (false, false, false, false)) := by decide
/-- V7. -/
theorem test_rev_sign : shows (exec (.rev .r1 .r2) (given [(.r1, 0x9999), (.r2, 0xa5c3)] [])) (fun t => (t.reg .r1, t.reg .r2, zcso t)) = some (0xc3a5, 0xa5c3, (false, false, true, false)) := by decide
/-- V8. -/
theorem test_shl : shows (exec (.shl .r1 .r2) (given [(.r1, 0x8001), (.r2, 0x0001)] [])) (fun t => (t.reg .r1, zcso t)) = some (0x0002, (false, true, false, true)) := by decide
/-- V8: only the low four bits count. -/
theorem test_shl_8 : shows (exec (.shl .r1 .r2) (given [(.r1, 0x00ff), (.r2, 0xfff8)] [])) (fun t => t.reg .r1) = some 0xff00 := by decide
/-- V8. -/
theorem test_shr : shows (exec (.shr .r1 .r2) (given [(.r1, 0x8001), (.r2, 0x0001)] [])) (fun t => (t.reg .r1, zcso t)) = some (0x4000, (false, true, false, true)) := by decide
/-- V8. -/
theorem test_shr_0 : shows (exec (.shr .r1 .r2) (given [(.r1, 0x8000), (.r2, 0x0000)] [])) (fun t => t.reg .r1) = some 0x8000 := by decide
/-- V8, C10. -/
theorem test_shra : shows (exec (.shra .r1 .r2) (given [(.r1, 0xffff), (.r2, 0x0001)] [])) (fun t => (t.reg .r1, zcso t)) = some (0xffff, (false, true, true, true)) := by decide
/-- V8, C10. -/
theorem test_shra_even : shows (exec (.shra .r1 .r2) (given [(.r1, 0xfffe), (.r2, 0x0001)] [])) (fun t => (t.reg .r1, zcso t)) = some (0xffff, (false, false, true, false)) := by decide
/-- V9. -/
theorem test_inc1 : shows (exec (.inc1 .r1 .r2) (given [(.r1, 0x9999), (.r2, 0x7fff)] [])) (fun t => (t.reg .r1, t.reg .r2, zcso t)) = some (0x8000, 0x7fff, (false, false, true, true)) := by decide
/-- V9. -/
theorem test_inc1_wrap : shows (exec (.inc1 .r1 .r2) (given [(.r1, 0x9999), (.r2, 0xffff)] [])) (fun t => (t.reg .r1, t.reg .r2, zcso t)) = some (0x0000, 0xffff, (true, true, false, false)) := by decide
/-- V9. -/
theorem test_inc2 : shows (exec (.inc2 .r1 .r2) (given [(.r1, 0x9999), (.r2, 0x7fff)] [])) (fun t => (t.reg .r1, t.reg .r2, zcso t)) = some (0x8001, 0x7fff, (false, false, true, true)) := by decide
/-- V9. -/
theorem test_inc2_wrap : shows (exec (.inc2 .r1 .r2) (given [(.r1, 0x9999), (.r2, 0xffff)] [])) (fun t => (t.reg .r1, t.reg .r2, zcso t)) = some (0x0001, 0xffff, (false, true, false, false)) := by decide
/-- V9. -/
theorem test_dec1 : shows (exec (.dec1 .r1 .r2) (given [(.r1, 0x9999), (.r2, 0x8000)] [])) (fun t => (t.reg .r1, t.reg .r2, zcso t)) = some (0x7fff, 0x8000, (false, false, false, true)) := by decide
/-- V9. -/
theorem test_dec1_wrap : shows (exec (.dec1 .r1 .r2) (given [(.r1, 0x9999), (.r2, 0x0000)] [])) (fun t => (t.reg .r1, t.reg .r2, zcso t)) = some (0xffff, 0x0000, (false, true, true, false)) := by decide
/-- V9. -/
theorem test_dec2 : shows (exec (.dec2 .r1 .r2) (given [(.r1, 0x9999), (.r2, 0x8001)] [])) (fun t => (t.reg .r1, t.reg .r2, zcso t)) = some (0x7fff, 0x8001, (false, false, false, true)) := by decide
/-- V9. -/
theorem test_dec2_wrap : shows (exec (.dec2 .r1 .r2) (given [(.r1, 0x9999), (.r2, 0x0001)] [])) (fun t => (t.reg .r1, t.reg .r2, zcso t)) = some (0xffff, 0x0001, (false, true, true, false)) := by decide
/-- V10: as defined. -/
theorem test_neg : shows (exec (.neg .r1 .r2) (allImplemented (given [(.r1, 0x9999), (.r2, 0x8000)] []))) (fun t => (t.reg .r1, t.reg .r2, zcso t)) = some (0x8000, 0x8000, (false, false, true, true)) := by decide
/-- V10: on this hardware. -/
theorem test_neg_iinstr : shows (exec (.neg .r1 .r2) (given [(.r2, 0x0005), (.pc, 0x0012)] [])) (fun t => (t.reg .r1, t.csrs.csr0, t.f, t.pc, t.halted)) = some (0x0000, 0x0102, 0x0200, 0x0012, true) := by decide
/-- V11: as defined. -/
theorem test_mulss : shows (exec (.mulss .r1 .r2) (allImplemented (given [(.r1, 0x8000), (.r2, 0x8000)] []))) (fun t => (t.reg .r1, t.reg .r2, zcso t)) = some (0x0000, 0x4000, (false, true, false, true)) := by decide
/-- V11: as defined. -/
theorem test_mulss_fits : shows (exec (.mulss .r1 .r2) (allImplemented (given [(.r1, 0xfffe), (.r2, 0x4000)] []))) (fun t => (t.reg .r1, t.reg .r2, zcso t)) = some (0x8000, 0xffff, (false, false, true, false)) := by decide
/-- V11: as defined. -/
theorem test_mulsu : shows (exec (.mulsu .r1 .r2) (allImplemented (given [(.r1, 0xffff), (.r2, 0xffff)] []))) (fun t => (t.reg .r1, t.reg .r2, zcso t)) = some (0x0001, 0xffff, (false, false, true, true)) := by decide
/-- V11: as defined. -/
theorem test_mulsu_pos : shows (exec (.mulsu .r1 .r2) (allImplemented (given [(.r1, 0x0002), (.r2, 0xffff)] []))) (fun t => (t.reg .r1, t.reg .r2, zcso t)) = some (0xfffe, 0x0001, (false, true, false, true)) := by decide
/-- V11: as defined. -/
theorem test_mulus : shows (exec (.mulus .r1 .r2) (allImplemented (given [(.r1, 0x8000), (.r2, 0xffff)] []))) (fun t => (t.reg .r1, t.reg .r2, zcso t)) = some (0x8000, 0xffff, (false, false, true, false)) := by decide
/-- V11: as defined. -/
theorem test_mulus_big : shows (exec (.mulus .r1 .r2) (allImplemented (given [(.r1, 0xffff), (.r2, 0x8000)] []))) (fun t => (t.reg .r1, t.reg .r2, zcso t)) = some (0x8000, 0x8000, (false, true, true, true)) := by decide
/-- V11: as defined. -/
theorem test_muluu : shows (exec (.muluu .r1 .r2) (allImplemented (given [(.r1, 0xffff), (.r2, 0xffff)] []))) (fun t => (t.reg .r1, t.reg .r2, zcso t)) = some (0x0001, 0xfffe, (false, true, false, true)) := by decide
/-- V11: as defined. -/
theorem test_muluu_fits : shows (exec (.muluu .r1 .r2) (allImplemented (given [(.r1, 0x00ff), (.r2, 0x0101)] []))) (fun t => (t.reg .r1, t.reg .r2, zcso t)) = some (0xffff, 0x0000, (false, false, false, true)) := by decide
/-- V2: bit 10 newly set by software. -/
theorem test_mv_f : shows (exec (.mv .f .r1) ((given [(.r1, 0x0400)] []).putCsr0 0x0100)) (fun t => (t.f, t.csrs.csr0)) = some (0x0400, 0x0000) := by decide
/-- V2: `pc` reads as the address of the next instruction. -/
theorem test_mv_pc : shows (exec (.mv .r5 .pc) (given [(.pc, 0x0012)] [])) (fun t => t.reg .r5) = some 0x0012 := by decide
/-- V2. -/
theorem test_exch_call : shows (exec (.exch .pc .ca) (given [(.pc, 0x0012), (.ca, 0x0200)] [])) (fun t => (t.pc, t.reg .ca)) = some (0x0200, 0x0012) := by decide
/-- V2. -/
theorem test_exch_f : shows (exec (.exch .r1 .f) (given [(.r1, 0x0020), (.f, 0x0090)] [])) (fun t => (t.reg .r1, t.f)) = some (0x0090, 0x0020) := by decide
/-- V2. -/
theorem test_csrr_csr0 : shows (exec (.csrr .r3 .csr0) (given [] [] |>.putCsr0 0x0101)) (fun t => t.reg .r3) = some 0x0101 := by decide
/-- V2: reads 0, and r6 is not involved. -/
theorem test_csrr_csr6 : shows (exec (.csrr .r3 .csr6) (given [(.r3, 0xaaaa), (.r6, 0x6666)] [])) (fun t => t.reg .r3) = some 0x0000 := by decide
/-- V2: only REASON written. -/
theorem test_csrw_csr0 : shows (exec (.csrw .csr0 .r1) (given [(.r1, 0xab42)] [] |>.putCsr0 0x0101)) (fun t => t.csrs.csr0) = some 0x0142 := by decide
/-- V2: fails silently, `f` not written. -/
theorem test_csrw_csr14 : shows (exec (.csrw .csr14 .r1) (given [(.r1, 0x1234), (.f, 0x0010)] [])) (fun t => (t.f, t.csrs)) = some (0x0010, State.reset.csrs) := by decide
/-- V3. -/
theorem test_ld : shows (exec (.ld .r2 .r2) (given [(.r2, 0x0100)] [(0x100, 0x34), (0x101, 0x12)])) (fun t => t.reg .r2) = some 0x1234 := by decide
/-- V3: no alignment rule. -/
theorem test_ld_odd : shows (exec (.ld .r1 .r2) (given [(.r2, 0x0101)] [(0x101, 0x12), (0x102, 0xcd)])) (fun t => t.reg .r1) = some 0xcd12 := by decide
/-- V3. -/
theorem test_ldb : shows (exec (.ldb .r1 .r2) (given [(.r1, 0xabcd), (.r2, 0x0100)] [(0x100, 0x7f)])) (fun t => t.reg .r1) = some 0xab7f := by decide
/-- V3. -/
theorem test_ldb_f : shows (exec (.ldb .f .r2) (given [(.f, 0x0100), (.r2, 0x0200)] [(0x200, 0xff)])) (fun t => t.f) = some 0x01ff := by decide
/-- V3. -/
theorem test_ldis_pc : shows (exec (.ldis .r1 .pc) (given [(.pc, 0x0012)] [(0x12, 0x34), (0x13, 0x12)])) (fun t => (t.reg .r1, t.pc)) = some (0x1234, 0x0014) := by decide
/-- V3. -/
theorem test_ldis_pop : shows (exec (.ldis .pc .sp) (given [(.sp, 0x59fe)] [(0x59fe, 0x0a)])) (fun t => (t.pc, t.reg .sp)) = some (0x000a, 0x5a00) := by decide
/-- R134: as defined. -/
theorem test_ldisx : shows (exec (.ldisx .ca .pc) (allImplemented (given [(.pc, 0x0012)] [(0x13, 0x02)]))) (fun t => (t.pc, t.reg .ca)) = some (0x0200, 0x0014) := by decide
/-- V3: on this hardware the word is not skipped. -/
theorem test_ldisx_iinstr : shows (exec (.ldisx .ca .pc) (given [(.pc, 0x0012)] [(0x13, 0x02)])) (fun t => (t.pc, t.reg .ca, t.csrs.csr0, t.halted)) = some (0x0012, 0x0000, 0x0102, true) := by decide
/-- V3. -/
theorem test_sto : shows (exec (.sto .r3 .r1) (given [(.r3, 0x0101), (.r1, 0x2233)] [])) (fun t => t.mem) = some [(0x101, 0x33), (0x102, 0x22)] := by decide
/-- V3: an address only. -/
theorem test_sto_f : shows (exec (.sto .f .r1) (given [(.f, 0x0100), (.r1, 0xaa55)] [])) (fun t => (t.mem, t.f)) = some ([(0x100, 0x55), (0x101, 0xaa)], 0x0100) := by decide
/-- V3. -/
theorem test_stob : shows (exec (.stob .r3 .r1) (given [(.r3, 0x5a00), (.r1, 0x12ff)] [(0x5a01, 0x77)])) (fun t => t.mem) = some [(0x5a00, 0xff), (0x5a01, 0x77)] := by decide
/-- V14: acknowledges. -/
theorem test_stob_rxd : shows (exec (.stob .r3 .r1) { given [(.r3, 0xffe1)] [] with kbd := { rxd := 0x1c, received := true, ready := true, txd := 0 } }) (fun t => (t.kbd.received, t.kbd.rxd)) = some (false, 0x1c) := by decide
/-- V14: starts a transmission. -/
theorem test_stob_txd : shows (exec (.stob .r3 .r1) (given [(.r3, 0xffe0), (.r1, 0x00ed)] [])) (fun t => (t.kbd.ready, t.kbd.txd)) = some (false, 0xed) := by decide
/-- R137: as defined. -/
theorem test_ddsto : shows (exec (.ddsto .sp .ca) (allImplemented (given [(.sp, 0x5a00), (.ca, 0x0012)] []))) (fun t => (t.reg .sp, t.mem)) = some (0x59fe, [(0x59fe, 0x12)]) := by decide
/-- V3: on this hardware. -/
theorem test_ddsto_iinstr : shows (exec (.ddsto .sp .ca) (given [(.sp, 0x5a00), (.ca, 0x0012)] [])) (fun t => (t.reg .sp, t.mem, t.csrs.csr0)) = some (0x5a00, [], 0x0102) := by decide
/-- V14. -/
theorem test_ld_clock : shows (exec (.ld .r1 .r2) (given [(.r2, 0xfff0)] [] |>.putClk 0x1234)) (fun t => t.reg .r1) = some 0x1234 := by decide
/-- V14. -/
theorem test_ldb_ready : shows (exec (.ldb .r1 .r2) { given [(.r2, 0xffe2)] [] with kbd := { rxd := 0x1c, received := true, ready := true, txd := 0 } }) (fun t => t.reg .r1) = some 0x0003 := by decide

/-- A state for the conditional instructions: the flags given, r1 = 0x1111, r2 = 0x0100 pointing at 0x1234. -/
def condState (f : Word) : State :=
  allImplemented (given [(.r1, 0x1111), (.r2, 0x0100), (.f, f)] [(0x100, 0x34), (0x101, 0x12)])

/-- Registers r1 and r2 after an instruction. -/
def pair (i : Instr) (f : Word) : Option (Word × Word) := shows (exec i (condState f)) (fun t => (t.reg .r1, t.reg .r2))

/-- R146 as defined. The test true, then false, every other flag at the other value. -/
theorem test_exchnf0 : pair (.exchnf0 .r1 .r2) 0x00fe = some (0x0100, 0x1111) ∧ pair (.exchnf0 .r1 .r2) 0x0001 = some (0x1111, 0x0100) := by decide
/-- R146 as defined. The test true, then false, every other flag at the other value. -/
theorem test_exchnf1 : pair (.exchnf1 .r1 .r2) 0x00fd = some (0x0100, 0x1111) ∧ pair (.exchnf1 .r1 .r2) 0x0002 = some (0x1111, 0x0100) := by decide
/-- R146 as defined. The test true, then false, every other flag at the other value. -/
theorem test_exchnf2 : pair (.exchnf2 .r1 .r2) 0x00fb = some (0x0100, 0x1111) ∧ pair (.exchnf2 .r1 .r2) 0x0004 = some (0x1111, 0x0100) := by decide
/-- R146 as defined. The test true, then false, every other flag at the other value. -/
theorem test_exchnf3 : pair (.exchnf3 .r1 .r2) 0x00f7 = some (0x0100, 0x1111) ∧ pair (.exchnf3 .r1 .r2) 0x0008 = some (0x1111, 0x0100) := by decide
/-- R146 as defined. The test true, then false, every other flag at the other value. -/
theorem test_exchnz : pair (.exchnz .r1 .r2) 0x00ef = some (0x0100, 0x1111) ∧ pair (.exchnz .r1 .r2) 0x0010 = some (0x1111, 0x0100) := by decide
/-- R146 as defined. The test true, then false, every other flag at the other value. -/
theorem test_exchnc : pair (.exchnc .r1 .r2) 0x00df = some (0x0100, 0x1111) ∧ pair (.exchnc .r1 .r2) 0x0020 = some (0x1111, 0x0100) := by decide
/-- R146 as defined. The test true, then false, every other flag at the other value. -/
theorem test_exchns : pair (.exchns .r1 .r2) 0x00bf = some (0x0100, 0x1111) ∧ pair (.exchns .r1 .r2) 0x0040 = some (0x1111, 0x0100) := by decide
/-- R146 as defined. The test true, then false, every other flag at the other value. -/
theorem test_exchno : pair (.exchno .r1 .r2) 0x007f = some (0x0100, 0x1111) ∧ pair (.exchno .r1 .r2) 0x0080 = some (0x1111, 0x0100) := by decide
/-- R146 as defined. The test true, then false, every other flag at the other value. -/
theorem test_exchf0 : pair (.exchf0 .r1 .r2) 0x0001 = some (0x0100, 0x1111) ∧ pair (.exchf0 .r1 .r2) 0x00fe = some (0x1111, 0x0100) := by decide
/-- R146 as defined. The test true, then false, every other flag at the other value. -/
theorem test_exchf1 : pair (.exchf1 .r1 .r2) 0x0002 = some (0x0100, 0x1111) ∧ pair (.exchf1 .r1 .r2) 0x00fd = some (0x1111, 0x0100) := by decide
/-- R146 as defined. The test true, then false, every other flag at the other value. -/
theorem test_exchf2 : pair (.exchf2 .r1 .r2) 0x0004 = some (0x0100, 0x1111) ∧ pair (.exchf2 .r1 .r2) 0x00fb = some (0x1111, 0x0100) := by decide
/-- R146 as defined. The test true, then false, every other flag at the other value. -/
theorem test_exchf3 : pair (.exchf3 .r1 .r2) 0x0008 = some (0x0100, 0x1111) ∧ pair (.exchf3 .r1 .r2) 0x00f7 = some (0x1111, 0x0100) := by decide
/-- R146 as defined. The test true, then false, every other flag at the other value. -/
theorem test_exchz : pair (.exchz .r1 .r2) 0x0010 = some (0x0100, 0x1111) ∧ pair (.exchz .r1 .r2) 0x00ef = some (0x1111, 0x0100) := by decide
/-- R146 as defined. The test true, then false, every other flag at the other value. -/
theorem test_exchc : pair (.exchc .r1 .r2) 0x0020 = some (0x0100, 0x1111) ∧ pair (.exchc .r1 .r2) 0x00df = some (0x1111, 0x0100) := by decide
/-- R146 as defined. The test true, then false, every other flag at the other value. -/
theorem test_exchs : pair (.exchs .r1 .r2) 0x0040 = some (0x0100, 0x1111) ∧ pair (.exchs .r1 .r2) 0x00bf = some (0x1111, 0x0100) := by decide
/-- R146 as defined. The test true, then false, every other flag at the other value. -/
theorem test_excho : pair (.excho .r1 .r2) 0x0080 = some (0x0100, 0x1111) ∧ pair (.excho .r1 .r2) 0x007f = some (0x1111, 0x0100) := by decide
/-- V4, R147. The test true, then false, every other flag at the other value. -/
theorem test_ldnf0 : pair (.ldnf0 .r1 .r2) 0x00fe = some (0x1234, 0x0100) ∧ pair (.ldnf0 .r1 .r2) 0x0001 = some (0x1111, 0x0100) := by decide
/-- V4, R147. The test true, then false, every other flag at the other value. -/
theorem test_ldnf1 : pair (.ldnf1 .r1 .r2) 0x00fd = some (0x1234, 0x0100) ∧ pair (.ldnf1 .r1 .r2) 0x0002 = some (0x1111, 0x0100) := by decide
/-- V4, R147. The test true, then false, every other flag at the other value. -/
theorem test_ldnf2 : pair (.ldnf2 .r1 .r2) 0x00fb = some (0x1234, 0x0100) ∧ pair (.ldnf2 .r1 .r2) 0x0004 = some (0x1111, 0x0100) := by decide
/-- V4, R147. The test true, then false, every other flag at the other value. -/
theorem test_ldnf3 : pair (.ldnf3 .r1 .r2) 0x00f7 = some (0x1234, 0x0100) ∧ pair (.ldnf3 .r1 .r2) 0x0008 = some (0x1111, 0x0100) := by decide
/-- V4, R147. The test true, then false, every other flag at the other value. -/
theorem test_ldnz : pair (.ldnz .r1 .r2) 0x00ef = some (0x1234, 0x0100) ∧ pair (.ldnz .r1 .r2) 0x0010 = some (0x1111, 0x0100) := by decide
/-- V4, R147. The test true, then false, every other flag at the other value. -/
theorem test_ldnc : pair (.ldnc .r1 .r2) 0x00df = some (0x1234, 0x0100) ∧ pair (.ldnc .r1 .r2) 0x0020 = some (0x1111, 0x0100) := by decide
/-- V4, R147. The test true, then false, every other flag at the other value. -/
theorem test_ldns : pair (.ldns .r1 .r2) 0x00bf = some (0x1234, 0x0100) ∧ pair (.ldns .r1 .r2) 0x0040 = some (0x1111, 0x0100) := by decide
/-- V4, R147. The test true, then false, every other flag at the other value. -/
theorem test_ldno : pair (.ldno .r1 .r2) 0x007f = some (0x1234, 0x0100) ∧ pair (.ldno .r1 .r2) 0x0080 = some (0x1111, 0x0100) := by decide
/-- V4, R147. The test true, then false, every other flag at the other value. -/
theorem test_ldf0 : pair (.ldf0 .r1 .r2) 0x0001 = some (0x1234, 0x0100) ∧ pair (.ldf0 .r1 .r2) 0x00fe = some (0x1111, 0x0100) := by decide
/-- V4, R147. The test true, then false, every other flag at the other value. -/
theorem test_ldf1 : pair (.ldf1 .r1 .r2) 0x0002 = some (0x1234, 0x0100) ∧ pair (.ldf1 .r1 .r2) 0x00fd = some (0x1111, 0x0100) := by decide
/-- V4, R147. The test true, then false, every other flag at the other value. -/
theorem test_ldf2 : pair (.ldf2 .r1 .r2) 0x0004 = some (0x1234, 0x0100) ∧ pair (.ldf2 .r1 .r2) 0x00fb = some (0x1111, 0x0100) := by decide
/-- V4, R147. The test true, then false, every other flag at the other value. -/
theorem test_ldf3 : pair (.ldf3 .r1 .r2) 0x0008 = some (0x1234, 0x0100) ∧ pair (.ldf3 .r1 .r2) 0x00f7 = some (0x1111, 0x0100) := by decide
/-- V4, R147. The test true, then false, every other flag at the other value. -/
theorem test_ldz : pair (.ldz .r1 .r2) 0x0010 = some (0x1234, 0x0100) ∧ pair (.ldz .r1 .r2) 0x00ef = some (0x1111, 0x0100) := by decide
/-- V4, R147. The test true, then false, every other flag at the other value. -/
theorem test_ldc : pair (.ldc .r1 .r2) 0x0020 = some (0x1234, 0x0100) ∧ pair (.ldc .r1 .r2) 0x00df = some (0x1111, 0x0100) := by decide
/-- V4, R147. The test true, then false, every other flag at the other value. -/
theorem test_lds : pair (.lds .r1 .r2) 0x0040 = some (0x1234, 0x0100) ∧ pair (.lds .r1 .r2) 0x00bf = some (0x1111, 0x0100) := by decide
/-- V4, R147. The test true, then false, every other flag at the other value. -/
theorem test_ldo : pair (.ldo .r1 .r2) 0x0080 = some (0x1234, 0x0100) ∧ pair (.ldo .r1 .r2) 0x007f = some (0x1111, 0x0100) := by decide
/-- V4, R148. The test true, then false, every other flag at the other value. -/
theorem test_ldnf0is : pair (.ldnf0is .r1 .r2) 0x00fe = some (0x1234, 0x0100) ∧ pair (.ldnf0is .r1 .r2) 0x0001 = some (0x1111, 0x0102) := by decide
/-- V4, R148. The test true, then false, every other flag at the other value. -/
theorem test_ldnf1is : pair (.ldnf1is .r1 .r2) 0x00fd = some (0x1234, 0x0100) ∧ pair (.ldnf1is .r1 .r2) 0x0002 = some (0x1111, 0x0102) := by decide
/-- V4, R148. The test true, then false, every other flag at the other value. -/
theorem test_ldnf2is : pair (.ldnf2is .r1 .r2) 0x00fb = some (0x1234, 0x0100) ∧ pair (.ldnf2is .r1 .r2) 0x0004 = some (0x1111, 0x0102) := by decide
/-- V4, R148. The test true, then false, every other flag at the other value. -/
theorem test_ldnf3is : pair (.ldnf3is .r1 .r2) 0x00f7 = some (0x1234, 0x0100) ∧ pair (.ldnf3is .r1 .r2) 0x0008 = some (0x1111, 0x0102) := by decide
/-- V4, R148. The test true, then false, every other flag at the other value. -/
theorem test_ldnzis : pair (.ldnzis .r1 .r2) 0x00ef = some (0x1234, 0x0100) ∧ pair (.ldnzis .r1 .r2) 0x0010 = some (0x1111, 0x0102) := by decide
/-- V4, R148. The test true, then false, every other flag at the other value. -/
theorem test_ldncis : pair (.ldncis .r1 .r2) 0x00df = some (0x1234, 0x0100) ∧ pair (.ldncis .r1 .r2) 0x0020 = some (0x1111, 0x0102) := by decide
/-- V4, R148. The test true, then false, every other flag at the other value. -/
theorem test_ldnsis : pair (.ldnsis .r1 .r2) 0x00bf = some (0x1234, 0x0100) ∧ pair (.ldnsis .r1 .r2) 0x0040 = some (0x1111, 0x0102) := by decide
/-- V4, R148. The test true, then false, every other flag at the other value. -/
theorem test_ldnois : pair (.ldnois .r1 .r2) 0x007f = some (0x1234, 0x0100) ∧ pair (.ldnois .r1 .r2) 0x0080 = some (0x1111, 0x0102) := by decide
/-- V4, R148. The test true, then false, every other flag at the other value. -/
theorem test_ldf0is : pair (.ldf0is .r1 .r2) 0x0001 = some (0x1234, 0x0100) ∧ pair (.ldf0is .r1 .r2) 0x00fe = some (0x1111, 0x0102) := by decide
/-- V4, R148. The test true, then false, every other flag at the other value. -/
theorem test_ldf1is : pair (.ldf1is .r1 .r2) 0x0002 = some (0x1234, 0x0100) ∧ pair (.ldf1is .r1 .r2) 0x00fd = some (0x1111, 0x0102) := by decide
/-- V4, R148. The test true, then false, every other flag at the other value. -/
theorem test_ldf2is : pair (.ldf2is .r1 .r2) 0x0004 = some (0x1234, 0x0100) ∧ pair (.ldf2is .r1 .r2) 0x00fb = some (0x1111, 0x0102) := by decide
/-- V4, R148. The test true, then false, every other flag at the other value. -/
theorem test_ldf3is : pair (.ldf3is .r1 .r2) 0x0008 = some (0x1234, 0x0100) ∧ pair (.ldf3is .r1 .r2) 0x00f7 = some (0x1111, 0x0102) := by decide
/-- V4, R148. The test true, then false, every other flag at the other value. -/
theorem test_ldzis : pair (.ldzis .r1 .r2) 0x0010 = some (0x1234, 0x0100) ∧ pair (.ldzis .r1 .r2) 0x00ef = some (0x1111, 0x0102) := by decide
/-- V4, R148. The test true, then false, every other flag at the other value. -/
theorem test_ldcis : pair (.ldcis .r1 .r2) 0x0020 = some (0x1234, 0x0100) ∧ pair (.ldcis .r1 .r2) 0x00df = some (0x1111, 0x0102) := by decide
/-- V4, R148. The test true, then false, every other flag at the other value. -/
theorem test_ldsis : pair (.ldsis .r1 .r2) 0x0040 = some (0x1234, 0x0100) ∧ pair (.ldsis .r1 .r2) 0x00bf = some (0x1111, 0x0102) := by decide
/-- V4, R148. The test true, then false, every other flag at the other value. -/
theorem test_ldois : pair (.ldois .r1 .r2) 0x0080 = some (0x1234, 0x0100) ∧ pair (.ldois .r1 .r2) 0x007f = some (0x1111, 0x0102) := by decide
/-- R149 as defined. The test true, then false, every other flag at the other value. -/
theorem test_ldxnf0is : pair (.ldxnf0is .r1 .r2) 0x00fe = some (0x0102, 0x1234) ∧ pair (.ldxnf0is .r1 .r2) 0x0001 = some (0x1111, 0x0102) := by decide
/-- R149 as defined. The test true, then false, every other flag at the other value. -/
theorem test_ldxnf1is : pair (.ldxnf1is .r1 .r2) 0x00fd = some (0x0102, 0x1234) ∧ pair (.ldxnf1is .r1 .r2) 0x0002 = some (0x1111, 0x0102) := by decide
/-- R149 as defined. The test true, then false, every other flag at the other value. -/
theorem test_ldxnf2is : pair (.ldxnf2is .r1 .r2) 0x00fb = some (0x0102, 0x1234) ∧ pair (.ldxnf2is .r1 .r2) 0x0004 = some (0x1111, 0x0102) := by decide
/-- R149 as defined. The test true, then false, every other flag at the other value. -/
theorem test_ldxnf3is : pair (.ldxnf3is .r1 .r2) 0x00f7 = some (0x0102, 0x1234) ∧ pair (.ldxnf3is .r1 .r2) 0x0008 = some (0x1111, 0x0102) := by decide
/-- R149 as defined. The test true, then false, every other flag at the other value. -/
theorem test_ldxnzis : pair (.ldxnzis .r1 .r2) 0x00ef = some (0x0102, 0x1234) ∧ pair (.ldxnzis .r1 .r2) 0x0010 = some (0x1111, 0x0102) := by decide
/-- R149 as defined. The test true, then false, every other flag at the other value. -/
theorem test_ldxncis : pair (.ldxncis .r1 .r2) 0x00df = some (0x0102, 0x1234) ∧ pair (.ldxncis .r1 .r2) 0x0020 = some (0x1111, 0x0102) := by decide
/-- R149 as defined. The test true, then false, every other flag at the other value. -/
theorem test_ldxnsis : pair (.ldxnsis .r1 .r2) 0x00bf = some (0x0102, 0x1234) ∧ pair (.ldxnsis .r1 .r2) 0x0040 = some (0x1111, 0x0102) := by decide
/-- R149 as defined. The test true, then false, every other flag at the other value. -/
theorem test_ldxnois : pair (.ldxnois .r1 .r2) 0x007f = some (0x0102, 0x1234) ∧ pair (.ldxnois .r1 .r2) 0x0080 = some (0x1111, 0x0102) := by decide
/-- R149 as defined. The test true, then false, every other flag at the other value. -/
theorem test_ldxf0is : pair (.ldxf0is .r1 .r2) 0x0001 = some (0x0102, 0x1234) ∧ pair (.ldxf0is .r1 .r2) 0x00fe = some (0x1111, 0x0102) := by decide
/-- R149 as defined. The test true, then false, every other flag at the other value. -/
theorem test_ldxf1is : pair (.ldxf1is .r1 .r2) 0x0002 = some (0x0102, 0x1234) ∧ pair (.ldxf1is .r1 .r2) 0x00fd = some (0x1111, 0x0102) := by decide
/-- R149 as defined. The test true, then false, every other flag at the other value. -/
theorem test_ldxf2is : pair (.ldxf2is .r1 .r2) 0x0004 = some (0x0102, 0x1234) ∧ pair (.ldxf2is .r1 .r2) 0x00fb = some (0x1111, 0x0102) := by decide
/-- R149 as defined. The test true, then false, every other flag at the other value. -/
theorem test_ldxf3is : pair (.ldxf3is .r1 .r2) 0x0008 = some (0x0102, 0x1234) ∧ pair (.ldxf3is .r1 .r2) 0x00f7 = some (0x1111, 0x0102) := by decide
/-- R149 as defined. The test true, then false, every other flag at the other value. -/
theorem test_ldxzis : pair (.ldxzis .r1 .r2) 0x0010 = some (0x0102, 0x1234) ∧ pair (.ldxzis .r1 .r2) 0x00ef = some (0x1111, 0x0102) := by decide
/-- R149 as defined. The test true, then false, every other flag at the other value. -/
theorem test_ldxcis : pair (.ldxcis .r1 .r2) 0x0020 = some (0x0102, 0x1234) ∧ pair (.ldxcis .r1 .r2) 0x00df = some (0x1111, 0x0102) := by decide
/-- R149 as defined. The test true, then false, every other flag at the other value. -/
theorem test_ldxsis : pair (.ldxsis .r1 .r2) 0x0040 = some (0x0102, 0x1234) ∧ pair (.ldxsis .r1 .r2) 0x00bf = some (0x1111, 0x0102) := by decide
/-- R149 as defined. The test true, then false, every other flag at the other value. -/
theorem test_ldxois : pair (.ldxois .r1 .r2) 0x0080 = some (0x0102, 0x1234) ∧ pair (.ldxois .r1 .r2) 0x007f = some (0x1111, 0x0102) := by decide
/-- V4, R150. The test true, then false, every other flag at the other value. -/
theorem test_mvnf0 : pair (.mvnf0 .r1 .r2) 0x00fe = some (0x0100, 0x0100) ∧ pair (.mvnf0 .r1 .r2) 0x0001 = some (0x1111, 0x0100) := by decide
/-- V4, R150. The test true, then false, every other flag at the other value. -/
theorem test_mvnf1 : pair (.mvnf1 .r1 .r2) 0x00fd = some (0x0100, 0x0100) ∧ pair (.mvnf1 .r1 .r2) 0x0002 = some (0x1111, 0x0100) := by decide
/-- V4, R150. The test true, then false, every other flag at the other value. -/
theorem test_mvnf2 : pair (.mvnf2 .r1 .r2) 0x00fb = some (0x0100, 0x0100) ∧ pair (.mvnf2 .r1 .r2) 0x0004 = some (0x1111, 0x0100) := by decide
/-- V4, R150. The test true, then false, every other flag at the other value. -/
theorem test_mvnf3 : pair (.mvnf3 .r1 .r2) 0x00f7 = some (0x0100, 0x0100) ∧ pair (.mvnf3 .r1 .r2) 0x0008 = some (0x1111, 0x0100) := by decide
/-- V4, R150. The test true, then false, every other flag at the other value. -/
theorem test_mvnz : pair (.mvnz .r1 .r2) 0x00ef = some (0x0100, 0x0100) ∧ pair (.mvnz .r1 .r2) 0x0010 = some (0x1111, 0x0100) := by decide
/-- V4, R150. The test true, then false, every other flag at the other value. -/
theorem test_mvnc : pair (.mvnc .r1 .r2) 0x00df = some (0x0100, 0x0100) ∧ pair (.mvnc .r1 .r2) 0x0020 = some (0x1111, 0x0100) := by decide
/-- V4, R150. The test true, then false, every other flag at the other value. -/
theorem test_mvns : pair (.mvns .r1 .r2) 0x00bf = some (0x0100, 0x0100) ∧ pair (.mvns .r1 .r2) 0x0040 = some (0x1111, 0x0100) := by decide
/-- V4, R150. The test true, then false, every other flag at the other value. -/
theorem test_mvno : pair (.mvno .r1 .r2) 0x007f = some (0x0100, 0x0100) ∧ pair (.mvno .r1 .r2) 0x0080 = some (0x1111, 0x0100) := by decide
/-- V4, R150. The test true, then false, every other flag at the other value. -/
theorem test_mvf0 : pair (.mvf0 .r1 .r2) 0x0001 = some (0x0100, 0x0100) ∧ pair (.mvf0 .r1 .r2) 0x00fe = some (0x1111, 0x0100) := by decide
/-- V4, R150. The test true, then false, every other flag at the other value. -/
theorem test_mvf1 : pair (.mvf1 .r1 .r2) 0x0002 = some (0x0100, 0x0100) ∧ pair (.mvf1 .r1 .r2) 0x00fd = some (0x1111, 0x0100) := by decide
/-- V4, R150. The test true, then false, every other flag at the other value. -/
theorem test_mvf2 : pair (.mvf2 .r1 .r2) 0x0004 = some (0x0100, 0x0100) ∧ pair (.mvf2 .r1 .r2) 0x00fb = some (0x1111, 0x0100) := by decide
/-- V4, R150. The test true, then false, every other flag at the other value. -/
theorem test_mvf3 : pair (.mvf3 .r1 .r2) 0x0008 = some (0x0100, 0x0100) ∧ pair (.mvf3 .r1 .r2) 0x00f7 = some (0x1111, 0x0100) := by decide
/-- V4, R150. The test true, then false, every other flag at the other value. -/
theorem test_mvz : pair (.mvz .r1 .r2) 0x0010 = some (0x0100, 0x0100) ∧ pair (.mvz .r1 .r2) 0x00ef = some (0x1111, 0x0100) := by decide
/-- V4, R150. The test true, then false, every other flag at the other value. -/
theorem test_mvc : pair (.mvc .r1 .r2) 0x0020 = some (0x0100, 0x0100) ∧ pair (.mvc .r1 .r2) 0x00df = some (0x1111, 0x0100) := by decide
/-- V4, R150. The test true, then false, every other flag at the other value. -/
theorem test_mvs : pair (.mvs .r1 .r2) 0x0040 = some (0x0100, 0x0100) ∧ pair (.mvs .r1 .r2) 0x00bf = some (0x1111, 0x0100) := by decide
/-- V4, R150. The test true, then false, every other flag at the other value. -/
theorem test_mvo : pair (.mvo .r1 .r2) 0x0080 = some (0x0100, 0x0100) ∧ pair (.mvo .r1 .r2) 0x007f = some (0x1111, 0x0100) := by decide
/-- V4: decided by the old `f`. -/
theorem test_mvns_f : shows (exec (.mvns .f .r2) (given [(.r2, 0x40)] [])) (fun t => t.f) = some 0x0040 := by decide
/-- V4: on this hardware. -/
theorem test_ldxzis_iinstr :
    shows (exec (.ldxzis .ca .pc) (given [(.f, 0x10), (.pc, 0x12)] [])) (fun t => (t.f, t.pc, t.csrs.csr0, t.halted)) =
      some (0x0210, 0x0012, 0x0102, true) := by decide
/-- V4: on this hardware. -/
theorem test_exchnc_iinstr :
    shows (exec (.exchnc .pc .ca) (given [(.ca, 0x200), (.pc, 0x12)] [])) (fun t => (t.f, t.pc, t.reg .ca, t.halted)) =
      some (0x0200, 0x0012, 0x0200, true) := by decide

/-! ## Exceptions, interrupts, events (V12 to V14) -/

/-- V12: interrupts off. -/
theorem test_ill : shows (exec (.ill .r7 .r9) (given [(.f, 0xf0), (.pc, 0x22)] []))
    (fun t => (t.csrs.csr0, t.f, t.pc, t.halted)) = some (0x0101, 0x02f0, 0x0022, true) := by decide
/-- V12: interrupts on. -/
theorem test_ill_enabled : shows (exec (.ill .r0 .r0) (given [(.f, 0x100), (.ia, 0x100), (.pc, 0x22)] []))
    (fun t => (t.csrs.csr0, t.f, t.pc, t.reg .ia, t.halted)) = some (0x0101, 0x0300, 0x0022, 0x0100, false) := by decide
/-- V12. -/
theorem test_unassigned22 : shows (exec (.unassigned22 0x22 .r1 .r2) (given [(.r1, 0x1111), (.pc, 0x32)] []))
    (fun t => (t.csrs.csr0, t.f, t.pc, t.reg .r1, t.halted)) = some (0x0102, 0x0200, 0x0032, 0x1111, true) := by decide
/-- V12. -/
theorem test_unassigned24 : shows (exec (.unassigned24 0x27 .r1 .r2) (given [(.r1, 0x1111), (.pc, 0x32)] []))
    (fun t => (t.csrs.csr0, t.f, t.pc, t.reg .r1, t.halted)) = some (0x0102, 0x0200, 0x0032, 0x1111, true) := by decide
/-- V12. -/
theorem test_unassigned28 : shows (exec (.unassigned28 0x28 .r1 .r2) (given [(.r1, 0x1111), (.pc, 0x32)] []))
    (fun t => (t.csrs.csr0, t.f, t.pc, t.reg .r1, t.halted)) = some (0x0102, 0x0200, 0x0032, 0x1111, true) := by decide
/-- V12. -/
theorem test_unassigned30 : shows (exec (.unassigned30 0x3f .r1 .r2) (given [(.r1, 0x1111), (.pc, 0x32)] []))
    (fun t => (t.csrs.csr0, t.f, t.pc, t.reg .r1, t.halted)) = some (0x0102, 0x0200, 0x0032, 0x1111, true) := by decide
/-- V12. -/
theorem test_unassigned40 : shows (exec (.unassigned40 0x7f .r1 .r2) (given [(.r1, 0x1111), (.pc, 0x32)] []))
    (fun t => (t.csrs.csr0, t.f, t.pc, t.reg .r1, t.halted)) = some (0x0102, 0x0200, 0x0032, 0x1111, true) := by decide
/-- V12. -/
theorem test_unassignedD0 : shows (exec (.unassignedD0 0xd0 .r1 .r2) (given [(.r1, 0x1111), (.pc, 0x32)] []))
    (fun t => (t.csrs.csr0, t.f, t.pc, t.reg .r1, t.halted)) = some (0x0102, 0x0200, 0x0032, 0x1111, true) := by decide
/-- V12. -/
theorem test_unassignedE0 : shows (exec (.unassignedE0 0xff .r1 .r2) (given [(.r1, 0x1111), (.pc, 0x32)] []))
    (fun t => (t.csrs.csr0, t.f, t.pc, t.reg .r1, t.halted)) = some (0x0102, 0x0200, 0x0032, 0x1111, true) := by decide
/-- V12: the fields are ignored. -/
theorem test_reti : shows (exec (.reti .f .f) ((given [(.ia, 0x12), (.f, 0x10)] []).csrWrite .csr1 0x0100))
    (fun t => (t.pc, t.reg .ia, t.f)) = some (0x0012, 0x0100, 0x0110) := by decide
/-- V13: entry, and the handler's first instruction in the same step (`mv r1, r1` at 0x0100). -/
theorem test_step_entry :
    shows (step (given [(.f, 0x0d00), (.pc, 0x40), (.ia, 0x100)] [(0x100, 0x0e), (0x101, 0x11)]))
      (fun t => (t.f, t.reg .ia, t.pc)) = some (0x0c00, 0x0040, 0x0102) := by decide
/-- V13: no entry while `ie` is 0 (`mv r1, r1` at 0x0040). -/
theorem test_step_masked :
    shows (step (given [(.f, 0x0400), (.pc, 0x40), (.ia, 0x100)] [(0x40, 0x0e), (0x41, 0x11)]))
      (fun t => (t.f, t.reg .ia, t.pc)) = some (0x0400, 0x0100, 0x0042) := by decide
/-- P7: cleared memory. -/
theorem test_step_cleared : shows (step State.reset) (fun t => (t.pc, t.f, t.csrs.csr0, t.halted)) =
    some (0x0002, 0x0200, 0x0101, true) := by decide
/-- V13: a halted CPU takes no step. -/
theorem test_step_halted : shows (step (State.reset.putHalted true)) (fun t => (t.pc, t.halted)) = some (0, true) := by decide
/-- V13: a clock tick; V14: the counter wraps. -/
theorem test_clock_tick : shows (step (((State.reset.putCsr0 0x0002).putClk 0xffff).putAgenda [.event .clockTick]))
    (fun t => (t.clk, t.f, t.csrs.csr0, t.agenda)) = some (0x0000, 0x0400, 0x0102, []) := by decide
/-- V14: a byte arrives. -/
theorem test_key_received : shows (applyEvent (.keyReceived 0x1c) State.reset)
    (fun t => (t.kbd.rxd, t.kbd.received, t.f, t.csrs.csr0)) = some (0x1c, true, 0x0800, 0x0100) := by decide
/-- V14: a transmission completes. -/
theorem test_key_sent : shows (applyEvent .keySent (State.reset.writeTxd 0xed)) (fun t => (t.kbd.ready, t.f)) =
    some (true, 0x0800) := by decide
/-- V13: the host clears bit 9 of `f`. -/
theorem test_cdi_resume : shows (applyEvent (.cdi (.setReg .f 0)) ((State.reset.putReg .f 0x0200).putHalted true))
    (fun t => (t.f, t.halted)) = some (0, false) := by decide
/-- R276: a single step stops the CPU. -/
theorem test_single_step : shows (step ((State.reset.putMem [(0, 0x0e), (1, 0x11)]).putRun .singleStep))
    (fun t => (t.run, t.pc)) = some (.stopped, 0x0002) := by decide
/-- R76: a word that straddles the edge of the ROM. -/
theorem test_rom_edge :
    shows (exec (.sto .r3 .r1) { given [(.r3, 0x00ff), (.r1, 0x2233)] [] with params := { implemented := [], romRange := some (0x100, 0x1ff) } })
      (fun t => t.mem) = some [(0xff, 0x33)] := by decide

/-! ## The picture (V14) -/

/-- The pixel in column 9 of row 1 is bit 1 of the byte at 0x5a21; attribute 0x71: white on blue. -/
theorem test_pixel : (State.reset.putMem [(0x5a21, 0x02), (0x7201, 0x71)]).pixel 9 1 = { red := true, green := true, blue := true } := by
  decide
/-- The last pixel: bit 7 of 0x71ff, attribute at 0x74ff. -/
theorem test_pixel_last : (State.reset.putMem [(0x71ff, 0x7f), (0x74ff, 0x71)]).pixel 255 191 = { red := false, green := false, blue := true } := by
  decide
/-- The border byte is at 0x7500. -/
theorem test_border : (State.reset.putMem [(0x7500, 0x04)]).border = { red := true, green := false, blue := false } := by decide

/-! ## Where an instruction is placed to be fetched next (log 22) -/

theorem test_place_after_reset : shows (step (State.reset.withFetchWord 16 0x1208)) (fun t => (t.reg .r1, t.pc)) =
    some (1, 2) := by decide
theorem test_place_at_handler :
    shows (step ((given [(.f, 0x0500), (.ia, 0x9000), (.pc, 0x40)] []).withFetchWord 16 0x1208)) (fun t => (t.reg .r1, t.pc)) =
      some (1, 2) := by decide

/-! ## The assembler and the debugger (R104 to R114, R273 to R276) -/

/-- A source text of these lines. -/
def source (l : List String) : Text := (l.map fun s => ascii s ++ [0x0a]).flatten

/-- The bytes of a listing, in order. -/
def listedBytes (l : List Listed) : List Byte := (placed l).map Prod.snd

/-- The bytes assembled from one file, in order. -/
def assembled (l : List String) : Except AsmError (List Byte) :=
  (assemble [(ascii "a.s", source l)] 100 (ascii "a.s")).map listedBytes

set_option maxRecDepth 100000

/-- P2 of 95_test_vectors.md. -/
theorem test_assemble_loop :
    assembled ["$addr 0", "ldis r1, pc", "$data_w 5", "xor r2, r2", "loop: add r2, r1", "dec1 r1, r1", "ldnzis pc, pc",
      "$data_w loop", "ill r0, r0"] =
    .ok [0x0c, 0x1f, 0x05, 0, 0x1a, 0x22, 0x01, 0x21, 0x05, 0x11, 0xa4, 0xff, 0x06, 0, 0, 0] := by decide
/-- R108, R111: priorities, constants, `__addr`. -/
theorem test_assemble_expressions :
    assembled ["$addr 0x10", "$data_w 1 + 2 * 3 - 4 - 5, (1 | 6 ^ 3) & 0b11_00 >> 2, ~0x00ff, 'ab', '', __addr # end"] =
    .ok [0xfe, 0xff, 1, 0, 0, 0xff, 0x61, 0x62, 0, 0, 0x10, 0] := by decide
/-- R106, R110, R112: a macro, its `$` and `$$`, case. -/
theorem test_assemble_macro :
    assembled ["$addr 0", "$macro jmp, T", "ld pc, pc", "l$: $data_w T", "$end_macro", "JMP 9", "jmp l$$", "$data_w l2"] =
    .ok [0x0a, 0xff, 9, 0, 0x0a, 0xff, 2, 0, 6, 0] := by decide
/-- R109, R112: namespaces; a name defined in two files. -/
theorem test_assemble_use :
    ((assemble [(ascii "d/a", source ["$use lib, b.s # path", "$addr 4", "x: $data_w lib.x, .x, y"]),
      (ascii "d/b.s", source ["$addr 0", "x: y: $data_w 7"])] 100 (ascii "d/a")).map fun x => (placed x).map Prod.snd) =
    .ok [7, 0, 0, 0, 4, 0, 0, 0] := by decide
/-- R109, R112: a mnemonic redefined, a constant defined by itself, a macro within itself. -/
theorem test_assemble_errors :
    assembled ["$addr 0", "add:"] = .error (.definedTwice (ascii "add")) ∧
    assembled ["$addr 0", "$const A, B", "$const B, A", "$data_b A"] = .error .cyclicConstant ∧
    assembled ["$addr 0", "$macro m", "m", "$end_macro", "m"] = .error .cyclicMacro := by decide
/-- R109: a name made ambiguous by a later definition; the implicit names with a qualifier. -/
theorem test_assemble_names :
    ((assemble [(ascii "a", source ["$use n, b", "$addr x", "x:"]), (ascii "b", source ["x:"])] 100 (ascii "a")).map
      listedBytes) = .error (.ambiguousName (ascii "x")) ∧
    assembled ["$addr 0", ".mv .r1, .SP"] = .ok [0x0e, 0x1b] := by decide
/-- R106, R110: a local name as first argument; a label before `$end_macro`; a cyclic macro that nothing expands. -/
theorem test_assemble_macro_lines :
    assembled ["$addr 4", "$macro m, A", "$data_w A", "x: $end_macro", "m .x"] = .ok [4, 0] ∧
    assembled ["$addr 0", "$macro a", "b", "$end_macro", "$macro b", "a", "$end_macro"] = .error .cyclicMacro := by decide
/-- R104, R107: paths and escapes of either case; a `#` in a character constant starts a comment. -/
theorem test_assemble_case :
    ((assemble [(ascii "a", source ["$use n, B.S", "$addr 0", "$data_b n.x, '\\N', 'A'"]), (ascii "b.s", source ["$const x, 7"])] 9
      (ascii "a")).map listedBytes) = .ok [7, 0x0a, 0x41] ∧
    assembled ["$data_b '#'"] = .error .badConstant := by decide
/-- R107: a byte above 126 in a character constant and in a path. -/
theorem test_assemble_bytes :
    (assemble [(ascii "a", ascii "$data_w '" ++ [0x80] ++ ascii "'")] 9 (ascii "a")).map listedBytes =
      .error (.badCharacter 0x80) ∧
    (assemble [(ascii "a", ascii "$use n, " ++ [0x80])] 9 (ascii "a")).map listedBytes = .error (.badCharacter 0x80) := by
  decide
/-- R105, R114: the source with the added lines. -/
theorem test_assemble_out :
    (assembleShown [(ascii "a.s", source ["$addr 0x1f00", "CSRW csr1, sp"])] 9 (ascii "a.s")).map outFile =
    .ok (source ["$addr 0x1f00", "CSRW csr1, sp", "; a.s:2", "; csrw csr1, r11", "; 1f00: 04 1b"]) := by decide
/-- R114: the start address line, then the bytes. -/
theorem test_assemble_bin :
    assembleBin [(ascii "a.s", source ["$addr 0x1f00", "csrw csr1, sp"])] 9 (ascii "a.s") =
    .ok (ascii "1f00" ++ [0x0a, 0x04, 0x1b]) := by decide
/-- R283, R288: power-up with an assembled image; the bytes it does not cover keep what they held. -/
theorem test_power_up_runs_image :
    ((assemble [(ascii "a.s", source ["$addr 0", "inc1 r1, r1"])] 9 (ascii "a.s")).bind imageOf).map (fun m =>
      shows (step (State.powerUp Config.thisHardware (imageData m) [(2, 7)])) (fun t => (t.reg .r1, t.pc, t.ram 2))) =
    .ok (some (1, 2, 7)) := by decide
/-- R274, R276: `load`, then single steps up to a breakpoint at 6. -/
theorem test_debug_load_and_run :
    ((shows (State.reset.debug (.load (ascii "0000" ++ [0x0a, 0x0c, 0x1f, 0x34, 0x12, 0x0e, 0x21]) none)) id).bind fun s =>
      shows (s.runToBreakpoint [6] 10) (fun t => (t.pc, t.reg .r2, t.run))) = some (6, 0x1234, .stopped) := by decide
/-- R204, R276: a breakpoint at the first instruction, at the handler's entry, and a newline between two steps. -/
theorem test_debug_breakpoints :
    shows (State.reset.runToBreakpoint [0] 9) (fun t => (t.pc, t.run)) = some (0, .stopped) ∧
    shows ((given [(.f, 0x0500), (.ia, 0x0080), (.pc, 0x40)] []).runToBreakpoint [0x80] 9) (fun t => (t.pc, t.run)) =
      some (0x40, .stopped) ∧
    shows (((given [] [(0, 0x0e), (2, 0x0e)]).putAgenda [.cpu, .event (.cdi .stop)]).runToBreakpoint [8] 9)
      (fun t => (t.pc, t.run)) = some (2, .stopped) := by decide
/-- E12 of 95_test_vectors.md: a SIZE of zero means 65536 bytes. -/
theorem test_debug_size_zero : saveRange 0 (some (0x10, 0)) = (0x10, 65536) ∧ byteCount 1 = 1 := by decide
/-- R274: `memset` is little endian, `save` reads what it stored and keeps none of an earlier `dump`'s bytes. -/
theorem test_debug_memset_save :
    ((shows (State.reset.debug (.memset 0x10 [(2, 0x1234), (1, 5)])) id).bind fun s =>
      (shows (s.debug (.dump 0 2)) id).bind fun s =>
      shows (s.debug (.save (some (0x10, 3)))) (fun t => savedFile (some (0x10, 3)) s t)) =
    some (ascii "0010" ++ [0x0a, 0x34, 0x12, 0x05]) := by decide

/-! ## The statements' hypotheses are met -/

/-- Registers at the edges of RAM and at the devices, every optional instruction implemented, `ie` and `exc` set. -/
def edges : State :=
  allImplemented (given [(.r1, 0x752f), (.r2, 0x752e), (.r3, 0xffe0), (.r4, 0xffe1), (.r5, 0xffe2), (.r6, 0xfff0),
    (.f, 0x8370), (.ia, 0x752e), (.pc, 0)] [(0, 0x0e), (1, 0x11), (0x752e, 0x0e), (0x752f, 0x22)])

/-- `edges` on hardware that implements no optional instruction. -/
def plain : State := { edges with params := Config.thisHardware }

/-- A build whose ROM is the last byte of RAM. -/
def withRom : State := { edges with params := { implemented := [], romRange := some (0x752f, 0x752f) } }

theorem witness_DecodeOfEncode : Instr.wf (.sto .sp .ca) = true ∧ Instr.wf (.unassigned40 0x7f .f .pc) = true := by decide
theorem witness_StepKeepsInvariant : Sound edges ∧ ∃ t, step edges = .next t := ⟨by unfold Sound; decide, _, rfl⟩
/-- RAM that is not empty. -/
theorem witness_InvariantAtReset : edges.mem.wf = true ∧ edges.mem ≠ [] := by decide
/-- Power-up, and a reset of a state with other registers. -/
theorem witness_RegistersAtReset : (∃ t, applyEvent .reset edges = .next t) ∧ edges.reg .f ≠ 0 := ⟨⟨_, rfl⟩, by decide⟩
/-- Interrupts off with a bit pending; interrupts on with none; a single step at the last word of RAM. -/
theorem witness_StepRunsDecodedInstruction :
    (let s := given [(.f, 0x8200)] [(0, 0x0e), (1, 0x11)]
     s.halted = false ∧ s.run = .running ∧ s.agenda = [] ∧ s.ie = false ∧ WordInRam s.pc ∧
      decode [s.ram s.pc, s.ram (s.pc + 1)] = .ok (.mv .r1 .r1, [])) ∧
    (let s := (given [(.f, 0x0100), (.pc, 0x752e)] [(0x752f, 0x22)]).putRun .singleStep
     s.halted = false ∧ s.run = .singleStep ∧ s.agenda = [] ∧ (s.f &&& 0xfe00#16) = 0 ∧ WordInRam s.pc ∧
      decode [s.ram s.pc, s.ram (s.pc + 1)] = .ok (.ill .r2 .r2, [])) := by
  unfold WordInRam; decide
/-- At the lowest and the highest pending bit, running and in single-step mode. -/
theorem witness_StepEntersHandler :
    edges.halted = false ∧ edges.run = .running ∧ (edges.putRun .singleStep).run = .singleStep ∧ edges.agenda = [] ∧
    edges.ie = true ∧ edges.f.getLsbD 9 = true ∧ edges.f.getLsbD 15 = true ∧ WordInRam (edges.reg .ia) ∧
    decode [edges.ram (edges.reg .ia), edges.ram (edges.reg .ia + 1)] = .ok (.mv .r2 .r2, []) := by
  unfold WordInRam; decide
theorem witness_HaltedOrStoppedTakesNoStep :
    (edges.putHalted true).halted = true ∧ (edges.putRun .stopped).run = .stopped ∧ edges.agenda = [] := by decide
/-- A reset and a host's write to `f` each end a halt. -/
theorem witness_HaltEndsOnlyByResetOrHost :
    shows (step ((edges.putHalted true).putAgenda [.event .reset])) (·.halted) = some false ∧
    shows (step ((edges.putHalted true).putAgenda [.event (.cdi (.setReg .f 0))])) (·.halted) = some false := by decide
theorem witness_HaltBeginsOnlyByException :
    State.reset.halted = false ∧ shows (exec (.ill .r0 .r0) State.reset) (·.halted) = some true ∧
    shows (applyEvent .clockTick State.reset) (·.halted) = some false := by decide
theorem witness_InstructionsLeaveOutsideAlone : ∃ t, exec (.sto .r3 .r1) edges = .next t := ⟨_, rfl⟩
theorem witness_OnlyStoresWriteMemory :
    (∀ a b, Instr.mv .r1 .r2 ≠ .sto a b ∧ Instr.mv .r1 .r2 ≠ .stob a b ∧ Instr.mv .r1 .r2 ≠ .ddsto a b) ∧
    ∃ t, exec (.mv .r1 .r2) edges = .next t := ⟨by intro a b; simp, _, rfl⟩
theorem witness_TemporariesChangedOnlyByCsrw :
    (∀ c r, Instr.or .f .r1 ≠ .csrw c r) ∧ (∃ t, exec (.or .f .r1) edges = .next t) ∧
    (∀ c v, Event.frame ≠ .cdi (.setCsr c v)) ∧ ∃ t, applyEvent .frame edges = .next t :=
  ⟨by intro c r; simp, ⟨_, rfl⟩, by intro c v; simp, _, rfl⟩
theorem witness_ReasonChangedOnlyByException :
    (∀ r, Instr.csrw .csr1 .r1 ≠ .csrw .csr0 r) ∧ (∃ t, exec (.csrw .csr1 .r1) edges = .next t) ∧
    (∀ v, Event.cdi (.setCsr .csr1 5) ≠ .cdi (.setCsr .csr0 v)) ∧ Event.cdi (.setCsr .csr1 5) ≠ .reset ∧
    ∃ t, applyEvent (.cdi (.setCsr .csr1 5)) edges = .next t :=
  ⟨by intro r; simp, ⟨_, rfl⟩, by simp, by simp, _, rfl⟩
/-- Bits 3 and 9 of `f`, the boundaries of its two clauses; `add` writes `z`, `c`, `s`, `o` between them. -/
theorem witness_FlagsKeptUnlessNamed :
    .f ∉ outputsOf (.add .ia .f) ∧ .f ∉ outputsOf (.sto .f .f) ∧
    shows (exec (.add .ia .pc) (edges.putReg .f 0x0208)) (·.f) = some 0x0208 ∧
    (∀ v, Event.clockTick ≠ .cdi (.setReg .f v)) ∧ (∃ t, applyEvent .clockTick edges = .next t) :=
  ⟨by decide, by decide, by decide, by simp, _, rfl⟩
/-- The outputs of an instruction of each class; `reti` leaves the registers of its fields. -/
theorem witness_RegistersKeptUnlessNamed :
    outputsOf (.ldis .r1 .pc) = [.r1, .pc] ∧ outputsOf (.ldb .r1 .r2) = [.r1] ∧ outputsOf (.cmpu .r1 .r2) = [] ∧
    outputsOf (.muluu .r1 .r2) = [.r1, .r2] ∧ outputsOf (.exchnf0 .r1 .r2) = [.r1, .r2] ∧
    outputsOf (.ldo .r1 .r2) = [.r1] ∧ outputsOf (.ldnf0is .r1 .r2) = [.r1, .r2] ∧
    outputsOf (.ldxois .r1 .r2) = [.r1, .r2] ∧ outputsOf (.mvo .r1 .r2) = [.r1] ∧
    outputsOf (.unassignedD0 0xd0 .r1 .r2) = [] ∧
    .sp ∉ outputsOf (.reti .sp .ca) ∧ (∃ t, exec (.reti .sp .ca) edges = .next t) :=
  ⟨by decide, by decide, by decide, by decide, by decide, by decide, by decide, by decide, by decide, by decide, by decide, _, rfl⟩
/-- Words at both ends of RAM; the two registers differ. -/
theorem witness_loads :
    WordInRam 0 ∧ WordInRam (edges.reg .r2) ∧ edges.reg .r1 ≤ Config.memMax ∧ (Reg.r1 ≠ Reg.r2) := by
  unfold WordInRam; decide
/-- A store to the last byte of RAM and to the last word, writable; an address in ROM; addresses that are no device's. -/
theorem witness_stores :
    edges.mem.wf = true ∧ edges.reg .r1 ≤ Config.memMax ∧ Writable edges.params (edges.reg .r1) ∧
    edges.reg .r2 + 1 ≤ Config.memMax ∧ Writable edges.params (edges.reg .r2 + 1) ∧ ¬ Writable withRom.params 0x752f ∧
    edges.reg .r5 ≠ Config.kbdAddr ∧ edges.reg .r5 ≠ Config.kbdAddr + 1 ∧ edges.reg .r5 + 1 ≠ Config.kbdAddr :=
  ⟨by decide, by decide, (fun _ _ h => by simp [edges, allImplemented, given, State.reset, Config.thisHardware, State.putReg, State.putMem] at h),
    by decide, (fun _ _ h => by simp [edges, allImplemented, given, State.reset, Config.thisHardware, State.putReg, State.putMem] at h),
    fun h => h 0x752f 0x752f rfl (by decide), by decide, by decide, by decide⟩
/-- A word whose high byte reaches `TXD`, one whose two bytes reach `TXD` and `RXD`, one whose low byte reaches `RXD`. -/
theorem witness_StoresToKeyboard :
    (∀ a, Writable edges.params a) ∧ edges.kbd.ready = true ∧ edges.reg .r3 = 0xffe0 ∧ edges.reg .r4 = 0xffe1 ∧
    (edges.putReg .r3 0xffdf).reg .r3 + 1 = 0xffe0 ∧ .ddsto ∈ edges.params.implemented ∧ Reg.r5 ≠ Reg.r1 ∧
    edges.reg .r5 = 0xffe0 + 2 :=
  ⟨fun _ _ _ h => by simp [edges, allImplemented, given, State.reset, Config.thisHardware, State.putReg, State.putMem] at h,
    by decide, by decide, by decide, by decide, by decide, by decide, by decide⟩
theorem witness_LoadsFromDevices :
    edges.reg .r4 = 0xffe1 ∧ (edges.putKbd { edges.kbd with received := true }).kbd.received = true ∧
    edges.reg .r5 = 0xffe2 ∧ edges.reg .r6 = 0xfff0 := by decide
/-- Each optional instruction is implemented in `edges` and is not in `plain`. -/
theorem witness_optional :
    ∀ o ∈ [OptionalInstr.ddsto, .exchNF, .ldisx, .ldxNFis, .mulss, .mulsu, .mulus, .muluu, .neg],
      o ∈ edges.params.implemented ∧ o ∉ plain.params.implemented := by decide
theorem witness_UnimplementedRaisesIinstr :
    IsOptional .neg (.neg .r1 .r2) ∧ IsOptional .exchNF (.exchnf0 .r1 .r2) ∧ OptionalInstr.neg ∉ plain.params.implemented :=
  ⟨.neg _ _, .exchNF { flag := 0, value := false, instr := .exchnf0 } _ _ (by simp [exchFamily, familyOf, List.range, List.range.loop]),
    by decide⟩
/-- Each family has sixteen members; in `edges` the first flag of `f` is 0 and the fifth is 1. -/
theorem witness_families :
    mvFamily.length = 16 ∧ ldFamily.length = 16 ∧ ldisFamily.length = 16 ∧ exchFamily.length = 16 ∧
    ldxFamily.length = 16 ∧ edges.f.getLsbD 0 = false ∧ edges.f.getLsbD 4 = true := by
  refine ⟨rfl, rfl, rfl, rfl, rfl, ?_, ?_⟩ <;> decide
/-- The counts the clauses on shifts speak of: 0, 1 and another. -/
theorem witness_shifts :
    (0x0010#16).toNat % 16 = 0 ∧ (0x0001#16).toNat % 16 = 1 ∧ (0x000f#16).toNat % 16 ≠ 0 ∧
    (0x000f#16).toNat % 16 ≠ 1 := by decide
/-- A negative product and one above the signed 16-bit range. -/
theorem witness_multiplies :
    shows (exec (.mulss .r1 .r2) (allImplemented (given [(.r1, 0x8000), (.r2, 0x7fff)] []))) (fun t => (t.reg .r1, t.reg .r2)) =
      some (0x8000, 0xc000) ∧
    shows (exec (.muluu .r1 .r2) (allImplemented (given [(.r1, 0xffff), (.r2, 0xffff)] []))) (fun t => (t.reg .r1, t.reg .r2)) =
      some (0x0001, 0xfffe) := by decide
/-- The ends of both ranges of opcodes in no list. -/
theorem witness_UnassignedOpcodesRaiseIinstr :
    ∀ op ∈ [(0x22 : Byte), 0x7f, 0xd0, 0xff],
      (0x22 ≤ op.toNat ∧ op.toNat ≤ 0x7f) ∨ (0xd0 ≤ op.toNat ∧ op.toNat ≤ 0xff) := by decide
theorem witness_PendingBitReentersAfterReti :
    edges.f.getLsbD 9 = true ∧ edges.f.getLsbD 15 = true ∧ ∃ t, exec (.reti .r0 .r0) edges = .next t := ⟨by decide, by decide, _, rfl⟩
/-- Each of the three kinds, the second at both ends of each range. -/
theorem witness_ExceptionEntersHandlerNext :
    edges.ie = true ∧ plain.ie = true ∧ RaisesException edges.params (.ill .r1 .r2) ∧
    RaisesException edges.params (.unassigned22 0x22 .r1 .r2) ∧ RaisesException edges.params (.unassigned40 0x7f .r1 .r2) ∧
    RaisesException edges.params (.unassignedD0 0xd0 .r1 .r2) ∧ RaisesException edges.params (.unassignedE0 0xff .r1 .r2) ∧
    RaisesException plain.params (.neg .r1 .r2) :=
  ⟨by decide, by decide, .ill _ _, .unassigned _ (by decide), .unassigned _ (by decide), .unassigned _ (by decide),
    .unassigned _ (by decide), .optional _ _ (.neg _ _) (by decide)⟩
theorem witness_StoreIsSeenByNextFetch :
    (edges.putReg .pc 0x752e).mem.wf = true ∧ (edges.putReg .pc 0x752e).reg .r2 = (edges.putReg .pc 0x752e).pc ∧
    WordInRam (edges.putReg .pc 0x752e).pc ∧ (edges.putReg .pc 0x752e).params.romRange = none := by
  unfold WordInRam; decide
theorem witness_KeyboardEventsInterrupt :
    edges.kbd.received = false ∧ (edges.putKbd { edges.kbd with ready := false }).kbd.ready = false := by decide
/-- `f` with bit 9 clear and with bit 9 set. -/
theorem witness_HostSetsRegister : (0xfdff#16).getLsbD 9 = false ∧ (0x0200#16).getLsbD 9 = true := by decide
/-- Two bytes that end at the last byte of RAM. -/
theorem witness_LoadAndConfigurationFillRam :
    edges.mem.wf = true ∧ splitBin (ascii "752e" ++ [0x0a, 0x0e, 0x12]) = some (0x752e, [0x0e, 0x12]) ∧
    (0x752e#16).toNat + [(0x0e : Byte), 0x12].length ≤ 30000 := by decide
/-- The last pixel and a screen pixel in its lower right quarter, with an attribute that blinks and one that does not; the
greatest border byte with no reserved bit. -/
theorem witness_PictureShowsVideoMemory :
    let s := (edges.putMem [(0x59ff + 6144, 0x80), (0x5a00 + 6144, 0xc7), (0x74ff, 0x30), (0x7500, 7), (0x7501, 1)]).putDisplay
      { phase := true, frames := 0 }
    (s.mem.read (0x5a00 + 6144)).getLsbD 3 = false ∧ (s.mem.read (0x5a00 + 6144)).getLsbD 7 = true ∧
    s.mem.read 0x7501 ≠ 0 ∧ s.display.phase = true ∧
    (s.mem.read (0x5a00 + 32 * 191 + 255 / 8)).getLsbD (255 % 8) = true ∧
    (s.mem.read (0x5a00 + 6144 + 32 * (191 / 8) + 255 / 8)).getLsbD 3 = false ∧
    (s.mem.read (0x5a00 + 6144 + 32 * (191 / 8) + 255 / 8)).getLsbD 7 = false ∧
    (s.mem.read 0x7500).toNat < 8 ∧ 128 + 2 * 255 + 1 = 639 ∧ 96 + 2 * 191 + 1 = 479 := by decide
/-- Two states that differ in a register and in the byte after the video memory. -/
theorem witness_PictureReadsNothingElse :
    let t := (edges.putReg .r1 7).putMem [(0x7502, 1)]
    (∀ n, n < 6914 → t.mem.read (0x5a00 + n) = edges.mem.read (0x5a00 + n)) ∧ t.display = edges.display := by
  refine ⟨fun n h => ?_, rfl⟩
  simp only [edges, allImplemented, given, State.putMem, State.putReg, List.foldl, Memory.read]
  simp [show 0x5a00 + n ≠ 0x7502 by omega, show 0x5a00 + n ≠ 1 by omega,
    show 0x5a00 + n ≠ 0x752e by omega, show 0x5a00 + n ≠ 0x752f by omega]

end Sys2Proof.Tests
end

/-! The states after power-up and reset: their registers, and the first fetch. -/

namespace Sys2Proof.Machine

@[simp] theorem Regs.zero_get (r : Reg) : Regs.zero.get r = 0 := by
  cases r <;> rfl

@[simp] theorem State.reset_regs : State.reset.regs = Regs.zero := rfl
@[simp] theorem State.resetEvent_regs (s : State) : s.resetEvent.regs = Regs.zero := rfl

theorem applyEvent_reset (s : State) : applyEvent .reset s = .next s.resetEvent := rfl

/-- A register file of zeros reads 0 in every register of the machine. -/
theorem State.reg_of_regs_zero {s : State} (h : s.regs = Regs.zero) (r : Reg) : s.reg r = 0 := by
  rw [State.reg, h, Regs.zero_get]

/-- With interrupts disabled the interrupt test changes nothing (R246). -/
theorem State.testInterrupts_of_ie_false {s : State} (h : s.ie = false) : s.testInterrupts = s := by
  obtain ⟨_, heq⟩ | ⟨hdue, _⟩ := s.testInterrupts_cases
  · exact heq
  · obtain ⟨hie, _⟩ := s.entryDue_iff.mp hdue
    rw [h] at hie
    cases hie

/-- Power-up, with or without an image, and the reset event all zero the whole register file (R24, R280). -/
theorem regs_zero_after_reset {t : State}
    (h : t = State.reset ∨ (∃ build image others, t = State.powerUp build image others) ∨
      ∃ s, applyEvent .reset s = .next t) : t.regs = Regs.zero := by
  obtain rfl | ⟨build, image, others, rfl⟩ | ⟨s, hs⟩ := h
  · exact State.reset_regs
  · exact State.powerUp_regs build image others
  · rw [applyEvent_reset] at hs
    cases hs
    exact s.resetEvent_regs

/-- With all registers 0, `ie` is 0 and `pc` is 0: no handler is entered, and the fetch is from the two lowest bytes of RAM
(R28). -/
theorem State.fetch_of_regs_zero {s : State} (h : s.regs = Regs.zero) :
    s.testInterrupts.fetch.1 = decodeInstr (s.ram 0) (s.ram 1) := by
  have hf : s.f = 0 := State.reg_of_regs_zero h .f
  have hpc : s.pc = 0 := State.reg_of_regs_zero h .pc
  have hie : s.ie = false := by
    rw [State.ie, hf]
    decide
  have hram : WordInRam s.pc := by
    rw [hpc]
    exact ⟨by decide, by decide⟩
  rw [State.testInterrupts_of_ie_false hie, State.fetch_ram s hram, hpc]
  rfl

/-- Settles O7: each of the three ways to start zeroes the register file, from which both parts follow. -/
theorem registersAtReset : Obligations.RegistersAtReset := by
  intro t ht
  have hzero : t.regs = Regs.zero := regs_zero_after_reset ht
  exact ⟨State.reg_of_regs_zero hzero, State.fetch_of_regs_zero hzero⟩

end Sys2Proof.Machine

/-! The moves between registers and CSRs: a register exchanged with itself, the bits of `csr0` read and written, and the
three statements of 40_move.md. -/

namespace Sys2Proof.Machine

theorem exec_mv (d r : Reg) (s : State) : exec (.mv d r) s = .next (s.writeReg d (s.reg r)) := rfl
theorem exec_exch (d r : Reg) (s : State) : exec (.exch d r) s = .next (s.exchange d r) := rfl
theorem exec_csrr (d : Reg) (c : Csr) (s : State) : exec (.csrr d c) s = .next (s.writeReg d (s.csrRead c)) := rfl
theorem exec_csrw (c : Csr) (r : Reg) (s : State) : exec (.csrw c r) s = .next (s.csrWrite c (s.reg r)) := rfl

/-! ## Exchanging two registers -/

@[simp] theorem Regs.set_get_self (x : Regs) (r : Reg) : x.set r (x.get r) = x := by
  refine Regs.ext_get _ _ fun q => ?_
  rw [Regs.get_set]
  split
  · next h => rw [h]
  · rfl

@[simp] theorem State.putReg_reg_self (s : State) (r : Reg) : s.putReg r (s.reg r) = s := by
  rw [State.putReg, State.reg, Regs.set_get_self]

/-- A store of the value `f` already holds sets no bit newly. -/
theorem not_setsPending_self (v : Word) : ¬ setsPending v v = true := by
  rw [setsPending_iff]
  rintro ⟨j, _, _, hset, hclear⟩
  rw [hset] at hclear
  cases hclear

/-- Storing into a register the value it holds changes nothing, not even `H` when the register is `f` (R241). -/
@[simp] theorem State.writeReg_reg_self (s : State) (r : Reg) : s.writeReg r (s.reg r) = s := by
  obtain h | ⟨rfl, hset, _⟩ := State.writeReg_cases s r (s.reg r)
  · rw [h, State.putReg_reg_self]
  · exact absurd hset (not_setsPending_self s.f)

/-- A register exchanged with itself: nothing happens (R121). -/
@[simp] theorem State.exchange_self (s : State) (d : Reg) : s.exchange d d = s := by
  rw [State.exchange, State.writeReg_reg_self, State.writeReg_reg_self]

/-- The second field's register takes the old value of the first's. -/
@[simp] theorem State.exchange_reg_src (s : State) (d r : Reg) : (s.exchange d r).reg r = s.reg d :=
  State.writeReg_reg_same _ r _

/-- The first field's register takes the old value of the second's. -/
@[simp] theorem State.exchange_reg_dst (s : State) (d r : Reg) : (s.exchange d r).reg d = s.reg r := by
  by_cases h : d = r
  · rw [h, State.exchange_self]
  · rw [State.exchange, State.writeReg_reg, if_neg h, State.writeReg_reg_same]

theorem StoresOnly.refl (l : List Reg) (s : State) : StoresOnly l s s :=
  ⟨fun _ _ => rfl, csrsAfterStore_of_same (fun _ _ => rfl) rfl,
    sameElsewhere_of rfl rfl rfl rfl rfl rfl rfl rfl rfl⟩

/-- The frame of an exchange, also of a register with itself. -/
theorem State.exchange_storesOnly (s : State) (d r : Reg) : StoresOnly [d, r] s (s.exchange d r) := by
  by_cases h : d = r
  · rw [h, State.exchange_self]
    exact StoresOnly.refl _ s
  · exact State.writeReg_writeReg_storesOnly s d r _ _ h

/-- Settles O20: a copy is one store, an exchange two, which cancel when both fields name one register. -/
theorem mvCopiesExchExchanges : Obligations.MvCopiesExchExchanges := by
  intro d r s
  exact ⟨rfl, rfl,
    ⟨_, exec_mv d r s, State.writeReg_reg_same s d _, State.writeReg_storesOnly s d _⟩,
    ⟨_, exec_exch d r s, State.exchange_reg_dst s d r, State.exchange_reg_src s d r, State.exchange_storesOnly s d r⟩⟩

/-! ## Reading and writing CSRs -/

/-- Bits 0 to 8 of a word, as a mask: the bits of `csr0` that are not reserved (R40). -/
theorem csr0Mask_getLsbD (j : Nat) : (0x01ff#16).getLsbD j = decide (j ≤ 8) := by
  by_cases h : j < 16
  · have low : ∀ k : Fin 16, (0x01ff#16).getLsbD k.val = decide (k.val ≤ 8) := by decide
    exact low ⟨j, h⟩
  · rw [BitVec.getLsbD_of_ge _ j (by omega)]
    simp [show ¬ j ≤ 8 by omega]

/-- What `CsrRead` answers for each CSR, in the words of claims (R38). -/
theorem State.csrRead_csrReads (s : State) (c : Csr) : CsrReads s c (s.csrRead c) := by
  cases c
  case csr0 =>
    intro j
    rw [State.csrRead, BitVec.getLsbD_and, csr0Mask_getLsbD, Bool.and_comm]
  all_goals rfl

/-- Settles O21: the word `CsrRead` answers is stored into the destination. -/
theorem csrrReadsCsr : Obligations.CsrrReadsCsr := by
  intro d c s
  refine ⟨rfl, _, exec_csrr d c s, ?_, State.writeReg_storesOnly s d _⟩
  rw [State.writeReg_reg_same]
  exact State.csrRead_csrReads s c

/-- The bits of a word whose low byte has been replaced by that of another. -/
theorem wordOf_highByte_lowByte_getLsbD (u v : Word) (j : Nat) :
    (wordOf (highByte u) (lowByte v)).getLsbD j = if j < 8 then v.getLsbD j else u.getLsbD j := by
  simp only [wordOf, highByte, lowByte, BitVec.getLsbD_append, BitVec.getLsbD_extractLsb']
  split
  · next h => simp [h]
  · next h =>
    by_cases h16 : j < 16
    · simp [show j - 8 < 8 by omega, show 8 + (j - 8) = j by omega]
    · simp [show ¬ j - 8 < 8 by omega, BitVec.getLsbD_of_ge u j (by omega)]

/-- What `CsrWrite` does to the CSRs, in the words of claims (R39). -/
theorem State.csrWrite_csrWritten (s : State) (c : Csr) (v : Word) : CsrWritten s (s.csrWrite c v) c v := by
  cases c
  case csr0 => exact ⟨wordOf_highByte_lowByte_getLsbD s.csrs.csr0 v, rfl⟩
  all_goals rfl

/-- Settles O22: `CsrWrite` of the source register, which touches the CSRs alone. -/
theorem csrwWritesCsr : Obligations.CsrwWritesCsr := by
  intro c r s
  refine ⟨rfl, _, exec_csrw c r s, State.csrWrite_csrWritten s c _, State.csrWrite_regs s c _, ?_⟩
  exact sameElsewhere_of (by simp) (by simp) (by simp) (by simp) (by simp) (by simp) (by simp) (by simp) (by simp)

end Sys2Proof.Machine

/-! The conditional families of 42_conditional.md: what each of the sixteen members does, and the statements of the moves
and the exchanges. -/

namespace Sys2Proof.Machine

/-! ## The sixteen members of a family -/

/-- Each member of a family has the opcode that its COND gives from `base` on (R93, R98), and what it does is one meaning,
applied to the result of its own test (R145). -/
def FamilyMeans (family : List Conditional) (base : Nat) (meaning : State → Bool → Reg → Reg → Out) : Prop :=
  ∀ c ∈ family, ∀ (d r : Reg) (s : State),
    c.opcodeFrom base d r ∧ exec (c.instr d r) s = meaning s (s.test c.flag c.value) d r

/-- Checking a family is checking its members in the order of COND. -/
theorem familyMeans_iff_forall (family : List Conditional) (base : Nat) (meaning : State → Bool → Reg → Reg → Out) :
    FamilyMeans family base meaning ↔ family.Forall fun c => ∀ (d r : Reg) (s : State),
      c.opcodeFrom base d r ∧ exec (c.instr d r) s = meaning s (s.test c.flag c.value) d r :=
  List.forall_iff_forall_mem.symm

theorem mvFamily_means : FamilyMeans mvFamily 0xc0 fun s b d r => .next (s.moveIf b d r) := by
  rw [familyMeans_iff_forall]
  and_intros <;> exact fun _ _ _ => ⟨rfl, rfl⟩

theorem exchFamily_means : FamilyMeans exchFamily 0x80 fun s b d r => s.ifImplemented .exchNF (s.exchangeIf b d r) := by
  rw [familyMeans_iff_forall]
  and_intros <;> exact fun _ _ _ => ⟨rfl, rfl⟩

/-! ## The two results of a test (R145) -/

theorem Conditional.test_of_holds {c : Conditional} {s : State} (h : c.holds s) : s.test c.flag c.value = true :=
  (s.test_iff c.flag c.value).mpr h

theorem Conditional.test_of_not_holds {c : Conditional} {s : State} (h : ¬ c.holds s) : s.test c.flag c.value = false :=
  Bool.eq_false_iff.mpr fun htest => h ((s.test_iff c.flag c.value).mp htest)

@[simp] theorem State.moveIf_true (s : State) (d r : Reg) : s.moveIf true d r = s.writeReg d (s.reg r) := rfl
@[simp] theorem State.moveIf_false (s : State) (d r : Reg) : s.moveIf false d r = s := rfl
@[simp] theorem State.exchangeIf_true (s : State) (d r : Reg) : s.exchangeIf true d r = s.exchange d r := rfl
@[simp] theorem State.exchangeIf_false (s : State) (d r : Reg) : s.exchangeIf false d r = s := rfl

/-! ## The conditional moves and exchanges -/

/-- Settles O32: every member moves by its test, and a move that happens is one store. -/
theorem mvNFMovesIfTrue : Obligations.MvNFMovesIfTrue := by
  intro c hc d r s
  obtain ⟨hop, hexec⟩ := mvFamily_means c hc d r s
  refine ⟨hop, _, hexec, fun htrue => ?_, fun hfalse => ?_⟩
  · rw [Conditional.test_of_holds htrue, State.moveIf_true]
    exact ⟨State.writeReg_reg_same s d _, State.writeReg_storesOnly s d _⟩
  · rw [Conditional.test_of_not_holds hfalse, State.moveIf_false]

/-- Settles O35: the build decides first, between IINSTR and the exchange; only then does the test. -/
theorem exchNFExchangesIfTrue : Obligations.ExchNFExchangesIfTrue := by
  intro c hc d r s
  obtain ⟨hop, hexec⟩ := exchFamily_means c hc d r s
  refine ⟨hop, ?_⟩
  obtain ⟨himpl, heq⟩ | ⟨hnot, heq⟩ := s.ifImplemented_cases .exchNF (s.exchangeIf (s.test c.flag c.value) d r)
  · refine ⟨_, hexec.trans heq, fun hnot => absurd himpl hnot, fun _ => ⟨fun htrue => ?_, fun hfalse => ?_⟩⟩
    · rw [Conditional.test_of_holds htrue, State.exchangeIf_true]
      exact ⟨State.exchange_reg_dst s d r, State.exchange_reg_src s d r, State.exchange_storesOnly s d r⟩
    · rw [Conditional.test_of_not_holds hfalse, State.exchangeIf_false]
  · exact ⟨_, hexec.trans heq, fun _ => s.raise_raises .iinstr, fun himpl => absurd himpl hnot⟩

end Sys2Proof.Machine

/-! The computational instructions of 43_computational.md: the sum and the difference, the logic, the two logical shifts,
the increments and the decrements. Each stores one result with its flags (`State.putResult_computes`); what is left to say
of each is its value and what its `c` and `o` mean. -/

namespace Sys2Proof.Machine

/-! ## `z` and `s` of a result (R10, R161) -/

@[simp] theorem zeroFlag_iff (v : Word) : zeroFlag v = true ↔ v = 0 := beq_iff_eq

theorem signFlag_iff (v : Word) : signFlag v = true ↔ v.getLsbD 15 = true := Iff.rfl

/-- The effect of an instruction whose `z` and `s` follow its result: its own are only the conditions for `c` and `o`. -/
theorem State.putResult_computes_of_carry_overflow (s : State) (d : Reg) (v : Word) (q : ZCSO) {c o : Prop}
    (hz : q.z = zeroFlag v) (hs : q.s = signFlag v) (hc : q.c = true ↔ c) (ho : q.o = true ↔ o) :
    Computes s (s.putResult d v q) d v (v = 0) c (v.getLsbD 15 = true) o := by
  refine State.putResult_computes s d v q _ _ _ _ ?_ hc ?_ ho
  · rw [hz, zeroFlag_iff]
  · rw [hs, signFlag_iff]

/-! ## Sum and difference (R162, R163) -/

theorem exec_add (d r : Reg) (s : State) :
    exec (.add d r) s = .next (s.putResult d (s.reg d + s.reg r) (addFlags (s.reg d) (s.reg r))) := rfl
theorem exec_sub (d r : Reg) (s : State) :
    exec (.sub d r) s = .next (s.putResult d (s.reg d - s.reg r) (subFlags (s.reg d) (s.reg r))) := rfl

/-- The sign rule for `o` of a sum (equal signs in, the other sign out) is the library's test of the signed range. -/
theorem addFlags_o_eq_saddOverflow (a b : Word) : (addFlags a b).o = a.saddOverflow b := by
  rw [BitVec.saddOverflow_eq, BitVec.msb_eq_getLsbD_last, BitVec.msb_eq_getLsbD_last, BitVec.msb_eq_getLsbD_last]
  rfl

/-- Different signs in, not the first one's out: the two ways this happens. -/
theorem sub_sign_rule : ∀ x y z : Bool, (x != y && z != x) = (!x && y && z || x && !y && !z) := by decide

/-- The sign rule for `o` of a difference (different signs in, not the first one's out) is the library's test of the signed
range. -/
theorem subFlags_o_eq_ssubOverflow (a b : Word) : (subFlags a b).o = a.ssubOverflow b := by
  rw [BitVec.ssubOverflow_eq, BitVec.msb_eq_getLsbD_last, BitVec.msb_eq_getLsbD_last, BitVec.msb_eq_getLsbD_last]
  exact sub_sign_rule _ _ _

theorem addFlags_o_iff (a b : Word) :
    (addFlags a b).o = true ↔ a.toInt + b.toInt < -32768 ∨ 32767 < a.toInt + b.toInt := by
  rw [addFlags_o_eq_saddOverflow, BitVec.saddOverflow, Bool.or_eq_true, decide_eq_true_iff, decide_eq_true_iff]
  omega

theorem subFlags_o_iff (a b : Word) :
    (subFlags a b).o = true ↔ a.toInt - b.toInt < -32768 ∨ 32767 < a.toInt - b.toInt := by
  rw [subFlags_o_eq_ssubOverflow, BitVec.ssubOverflow, Bool.or_eq_true, decide_eq_true_iff, decide_eq_true_iff]
  omega

/-- A difference modulo 2^16, with the borrowed 2^16 on the first operand. -/
theorem toNat_sub_borrow (a b : Word) : (a - b).toNat = (a.toNat + 2 ^ 16 - b.toNat) % 2 ^ 16 := by
  have hb : b.toNat < 2 ^ 16 := b.isLt
  rw [BitVec.toNat_sub]
  congr 1
  omega

/-- Settles O37: `c` tests the exact sum as it stands, `o` by the sign rule. -/
theorem addResult : Obligations.AddResult := by
  intro d r s
  exact ⟨rfl, _, _, exec_add d r s, BitVec.toNat_add _ _,
    s.putResult_computes_of_carry_overflow d _ _ rfl rfl decide_eq_true_iff (addFlags_o_iff _ _)⟩

/-- Settles O38: `c` tests the order of the operands as it stands, `o` by the sign rule. -/
theorem subResult : Obligations.SubResult := by
  intro d r s
  exact ⟨rfl, _, _, exec_sub d r s, toNat_sub_borrow _ _,
    s.putResult_computes_of_carry_overflow d _ _ rfl rfl decide_eq_true_iff (subFlags_o_iff _ _)⟩

/-! ## Logic (R170 to R174) -/

theorem exec_and (d r : Reg) (s : State) : exec (.and d r) s = .next (s.putLogic d (s.reg d &&& s.reg r)) := rfl
theorem exec_or (d r : Reg) (s : State) : exec (.or d r) s = .next (s.putLogic d (s.reg d ||| s.reg r)) := rfl
theorem exec_xor (d r : Reg) (s : State) : exec (.xor d r) s = .next (s.putLogic d (s.reg d ^^^ s.reg r)) := rfl
theorem exec_not (d r : Reg) (s : State) : exec (.not d r) s = .next (s.putLogic d (~~~ s.reg r)) := rfl
theorem exec_rev (d r : Reg) (s : State) : exec (.rev d r) s = .next (s.putLogic d (reverseBits (s.reg r))) := rfl

/-- The effect of every logic instruction, from its result. -/
theorem State.putLogic_computes (s : State) (d : Reg) (v : Word) :
    Computes s (s.putLogic d v) d v (v = 0) False (v.getLsbD 15 = true) False :=
  s.putResult_computes_of_carry_overflow d v (logicFlags v) rfl rfl Bool.false_eq_true.to_iff
    Bool.false_eq_true.to_iff

theorem complement_getLsbD (v : Word) (j : Nat) (h : j < 16) : (~~~ v).getLsbD j = !v.getLsbD j := by
  rw [BitVec.getLsbD_not, decide_eq_true h, Bool.true_and]

theorem reverseBits_getLsbD (v : Word) (j : Nat) (h : j < 16) : (reverseBits v).getLsbD j = v.getLsbD (15 - j) := by
  rw [reverseBits, BitVec.getLsbD_reverse, BitVec.getMsbD, decide_eq_true h, Bool.true_and]

/-- Settles O40: the five differ in the bits of the result alone. -/
theorem logicResult : Obligations.LogicResult := by
  intro d r s
  exact ⟨rfl, rfl, rfl, rfl, rfl,
    ⟨_, _, exec_and d r s, fun _ => BitVec.getLsbD_and, s.putLogic_computes d _⟩,
    ⟨_, _, exec_or d r s, fun _ => BitVec.getLsbD_or, s.putLogic_computes d _⟩,
    ⟨_, _, exec_xor d r s, fun _ => BitVec.getLsbD_xor, s.putLogic_computes d _⟩,
    ⟨_, _, exec_not d r s, complement_getLsbD _, s.putLogic_computes d _⟩,
    ⟨_, _, exec_rev d r s, reverseBits_getLsbD _, s.putLogic_computes d _⟩⟩

/-! ## Logical shifts (R175, R176) -/

/-- The low four bits, as a number. -/
theorem shiftCount_eq_mod (v : Word) : shiftCount v = v.toNat % 16 := by
  rw [shiftCount, BitVec.extractLsb'_toNat, Nat.shiftRight_zero]

theorem toNat_shiftLeft_shiftCount (v u : Word) :
    (v <<< shiftCount u).toNat = v.toNat * 2 ^ (u.toNat % 16) % 2 ^ 16 := by
  rw [BitVec.toNat_shiftLeft, Nat.shiftLeft_eq, shiftCount_eq_mod]

theorem toNat_ushiftRight_shiftCount (v u : Word) :
    (v >>> shiftCount u).toNat = v.toNat / 2 ^ (u.toNat % 16) := by
  rw [BitVec.toNat_ushiftRight, Nat.shiftRight_eq_div_pow, shiftCount_eq_mod]

/-- A shift by 1 signals the bit shifted out; `c` of any other shift is open (log 6). -/
theorem State.shiftCarry_fst_of_count_one (s : State) (u : Word) (b : Bool) (h : u.toNat % 16 = 1) :
    (s.shiftCarry (shiftCount u) b).1 = b := by
  rw [State.shiftCarry, shiftCount_eq_mod, if_pos h]

/-- Counting free values before the effect changes nothing that the effect speaks of. -/
theorem Computes.of_bump {s t : State} {n : Nat} {d : Reg} {r : Word} {z c sg o : Prop}
    (h : Computes (s.bump n) t d r z c sg o) : Computes s t d r z c sg o := h

/-- The effect of a logical shift of `v` that gives `r`: whether or not its carry is open, the result and the flags are
stored as by any other computation. -/
theorem State.shiftCarry_putResult_computes (s : State) (n : Nat) (b : Bool) (d : Reg) (v r : Word) :
    Computes s
      ((s.shiftCarry n b).2.putResult d r
        { z := zeroFlag r, c := (s.shiftCarry n b).1, s := signFlag r, o := r.getLsbD 15 != v.getLsbD 15 })
      d r (r = 0) ((s.shiftCarry n b).1 = true) (r.getLsbD 15 = true) (r.getLsbD 15 ≠ v.getLsbD 15) := by
  obtain ⟨m, hbump⟩ := s.shiftCarry_state n b
  rw [hbump]
  exact (State.putResult_computes_of_carry_overflow _ d r _ rfl rfl Iff.rfl bne_iff_ne).of_bump

/-- Settles O41: the count is the source modulo 16, and shifting left multiplies by its power of 2. -/
theorem shlResult : Obligations.ShlResult := by
  intro d r s
  exact ⟨rfl, _, s.reg d <<< shiftCount (s.reg r), (s.shiftCarry (shiftCount (s.reg r)) ((s.reg d).getLsbD 15)).1,
    rfl, toNat_shiftLeft_shiftCount _ _, s.shiftCarry_fst_of_count_one _ _,
    s.shiftCarry_putResult_computes _ _ d _ _⟩

/-- Settles O42: the count is the source modulo 16, and shifting right divides by its power of 2. -/
theorem shrResult : Obligations.ShrResult := by
  intro d r s
  exact ⟨rfl, _, s.reg d >>> shiftCount (s.reg r), (s.shiftCarry (shiftCount (s.reg r)) ((s.reg d).getLsbD 0)).1,
    rfl, toNat_ushiftRight_shiftCount _ _, s.shiftCarry_fst_of_count_one _ _,
    s.shiftCarry_putResult_computes _ _ d _ _⟩

/-! ## Increments and decrements (R178 to R181)

The model tests the source for `c` and `o`; the statement speaks of the result. -/

theorem exec_inc1 (d r : Reg) (s : State) :
    exec (.inc1 d r) s = .next (s.putResult d (s.reg r + 1) (inc1Flags (s.reg r))) := rfl
theorem exec_inc2 (d r : Reg) (s : State) :
    exec (.inc2 d r) s = .next (s.putResult d (s.reg r + 2) (inc2Flags (s.reg r))) := rfl
theorem exec_dec1 (d r : Reg) (s : State) :
    exec (.dec1 d r) s = .next (s.putResult d (s.reg r - 1) (dec1Flags (s.reg r))) := rfl
theorem exec_dec2 (d r : Reg) (s : State) :
    exec (.dec2 d r) s = .next (s.putResult d (s.reg r - 2) (dec2Flags (s.reg r))) := rfl

theorem toNat_sub_one (a : Word) : (a - 1).toNat = (a.toNat + 65535) % 2 ^ 16 := by bv_omega
theorem toNat_sub_two (a : Word) : (a - 2).toNat = (a.toNat + 65534) % 2 ^ 16 := by bv_omega

theorem inc1Flags_c_iff (a : Word) : (inc1Flags a).c = true ↔ a + 1 = 0 := by
  rw [inc1Flags, beq_iff_eq]
  bv_omega

theorem inc1Flags_o_iff (a : Word) : (inc1Flags a).o = true ↔ a + 1 = 0x8000 := by
  rw [inc1Flags, beq_iff_eq]
  bv_omega

theorem inc2Flags_c_iff (a : Word) : (inc2Flags a).c = true ↔ a + 2 = 0 ∨ a + 2 = 1 := by
  rw [inc2Flags, decide_eq_true_iff]
  bv_omega

theorem inc2Flags_o_iff (a : Word) : (inc2Flags a).o = true ↔ a + 2 = 0x8000 ∨ a + 2 = 0x8001 := by
  rw [inc2Flags, Bool.or_eq_true, beq_iff_eq, beq_iff_eq]
  bv_omega

theorem dec1Flags_c_iff (a : Word) : (dec1Flags a).c = true ↔ a - 1 = 0xffff := by
  rw [dec1Flags, beq_iff_eq]
  bv_omega

theorem dec1Flags_o_iff (a : Word) : (dec1Flags a).o = true ↔ a - 1 = 0x7fff := by
  rw [dec1Flags, beq_iff_eq]
  bv_omega

theorem dec2Flags_c_iff (a : Word) : (dec2Flags a).c = true ↔ a - 2 = 0xffff ∨ a - 2 = 0xfffe := by
  rw [dec2Flags, decide_eq_true_iff]
  bv_omega

theorem dec2Flags_o_iff (a : Word) : (dec2Flags a).o = true ↔ a - 2 = 0x7fff ∨ a - 2 = 0x7ffe := by
  rw [dec2Flags, Bool.or_eq_true, beq_iff_eq, beq_iff_eq]
  bv_omega

/-- Settles O44: each of the four has its carry or borrow and its overflow from the result. -/
theorem incDecResult : Obligations.IncDecResult := by
  intro d r s
  exact ⟨rfl, rfl, rfl, rfl,
    ⟨_, _, exec_inc1 d r s, BitVec.toNat_add (s.reg r) 1,
      s.putResult_computes_of_carry_overflow d _ _ rfl rfl (inc1Flags_c_iff _) (inc1Flags_o_iff _)⟩,
    ⟨_, _, exec_inc2 d r s, BitVec.toNat_add (s.reg r) 2,
      s.putResult_computes_of_carry_overflow d _ _ rfl rfl (inc2Flags_c_iff _) (inc2Flags_o_iff _)⟩,
    ⟨_, _, exec_dec1 d r s, toNat_sub_one _,
      s.putResult_computes_of_carry_overflow d _ _ rfl rfl (dec1Flags_c_iff _) (dec1Flags_o_iff _)⟩,
    ⟨_, _, exec_dec2 d r s, toNat_sub_two _,
      s.putResult_computes_of_carry_overflow d _ _ rfl rfl (dec2Flags_c_iff _) (dec2Flags_o_iff _)⟩⟩

end Sys2Proof.Machine

/-! The return from the handler (45_special.md): the three registers it changes, one lemma for each, and its frame. -/

namespace Sys2Proof.Machine

theorem exec_reti (d r : Reg) (s : State) : exec (.reti d r) s = .next s.returnFromHandler := rfl

@[simp] theorem State.returnFromHandler_f (s : State) : s.returnFromHandler.f = withBit s.f 8 true :=
  State.returnFromHandler_reg s .f

@[simp] theorem State.returnFromHandler_pc (s : State) : s.returnFromHandler.pc = s.reg .ia :=
  State.returnFromHandler_reg s .pc

@[simp] theorem State.returnFromHandler_ia (s : State) : s.returnFromHandler.reg .ia = s.csrs.csr1 :=
  State.returnFromHandler_reg s .ia

@[simp] theorem State.returnFromHandler_ie (s : State) : s.returnFromHandler.ie = true := by
  rw [State.ie, State.returnFromHandler_f, withBit_same s.f 8 true (by decide)]

/-- Of `f` only `ie` changes: the pending bits 9 to 15 stay (R201, R252). -/
theorem State.returnFromHandler_f_getLsbD_of_ne (s : State) (j : Nat) (h : j ≠ 8) :
    s.returnFromHandler.f.getLsbD j = s.f.getLsbD j := by
  rw [State.returnFromHandler_f, withBit_of_ne s.f 8 j true (by decide) h]

theorem State.returnFromHandler_regsSameBut (s : State) : RegsSameBut [.f, .pc, .ia] s s.returnFromHandler := by
  intro q hq
  obtain ⟨hf, hpc, hia⟩ : q ≠ .f ∧ q ≠ .pc ∧ q ≠ .ia := by simpa using hq
  rw [State.returnFromHandler_reg, if_neg hia, if_neg hpc, if_neg hf]

theorem State.returnFromHandler_sameElsewhere (s : State) : SameElsewhere s s.returnFromHandler :=
  sameElsewhere_of s.returnFromHandler_halted s.returnFromHandler_mem s.returnFromHandler_kbd s.returnFromHandler_clk
    s.returnFromHandler_display s.returnFromHandler_agenda s.returnFromHandler_replies s.returnFromHandler_params
    s.returnFromHandler_run

/-- Settles O51: the fields are ignored, so the claim is what the return from the handler does. -/
theorem retiReturns : Obligations.RetiReturns := by
  intro d r s
  exact ⟨rfl, _, exec_reti d r s, s.returnFromHandler_ie, s.returnFromHandler_f_getLsbD_of_ne,
    s.returnFromHandler_pc, s.returnFromHandler_ia, s.returnFromHandler_regsSameBut,
    s.returnFromHandler_csrs, s.returnFromHandler_sameElsewhere⟩

end Sys2Proof.Machine

/-! The encoding (30_encoding.md): what the two bytes of an instruction decode to, and what a decoded pair encodes to. -/

namespace Sys2Proof

/-! ## The fields of the register byte (R90, R91) -/

@[simp] theorem regOfField_fieldOfReg (r : Reg) : regOfField (fieldOfReg r) = r := by
  cases r <;> rfl

@[simp] theorem csrOfField_fieldOfCsr (c : Csr) : csrOfField (fieldOfCsr c) = c := by
  cases c <;> rfl

@[simp] theorem fieldOfReg_regOfField : ∀ x : BitVec 4, fieldOfReg (regOfField x) = x := by decide

@[simp] theorem fieldOfCsr_csrOfField : ∀ x : BitVec 4, fieldOfCsr (csrOfField x) = x := by decide

/-- Decoding splits the register byte into `DSTR` and `SRCR`. -/
theorem decodeInstr_append (op : Byte) (x y : BitVec 4) :
    decodeInstr op (x ++ y) = if op.getLsbD 7 then decodeConditional op x y else decodeUnconditional op x y := by
  rw [decodeInstr, BitVec.extractLsb'_append_eq_left, BitVec.extractLsb'_append_eq_right]

/-- Bit 7 of an opcode tells the upper half of the opcodes (R92). -/
theorem getLsbD_seven_iff (op : Byte) : op.getLsbD 7 = true ↔ 128 ≤ op.toNat := by
  rw [← decide_eq_true_iff (p := 128 ≤ op.toNat)]
  exact Bool.eq_iff_iff.mp (BitVec.msb_eq_decide op)

/-! ## The unassigned opcodes (R102, R203) -/

theorem inRange_iff (lo hi op : Byte) : inRange lo hi op = true ↔ lo.toNat ≤ op.toNat ∧ op.toNat ≤ hi.toNat := by
  rw [inRange, Bool.and_eq_true, decide_eq_true_iff, decide_eq_true_iff, BitVec.le_def, BitVec.le_def]

/-- With bit 7 = 0 the opcodes from 0x22 on go to the five lower unassigned rows. -/
theorem decodeUnconditional_unassigned (op : Byte) (x y : BitVec 4) (h : 0x22 ≤ op.toNat) :
    decodeUnconditional op x y =
      if op.toNat < 0x24 then .unassigned22 op (regOfField x) (regOfField y)
      else if op.toNat < 0x28 then .unassigned24 op (regOfField x) (regOfField y)
      else if op.toNat < 0x30 then .unassigned28 op (regOfField x) (regOfField y)
      else if op.toNat < 0x40 then .unassigned30 op (regOfField x) (regOfField y)
      else .unassigned40 op (regOfField x) (regOfField y) := by
  unfold decodeUnconditional
  split
  case h_35 => rfl
  all_goals omega

/-- `OP`, bits 6:4 of an opcode, as a number (R93). -/
theorem family_toNat (op : Byte) : (op.extractLsb' 4 3).toNat = op.toNat / 16 % 8 := by
  rw [BitVec.extractLsb'_toNat, Nat.shiftRight_eq_div_pow]

/-- With bit 7 = 1 the opcodes from 0xd0 on go to the two upper unassigned rows. -/
theorem decodeConditional_unassigned (op : Byte) (x y : BitVec 4) (h : 0xd0 ≤ op.toNat) :
    decodeConditional op x y =
      if op.toNat < 0xe0 then .unassignedD0 op (regOfField x) (regOfField y)
      else .unassignedE0 op (regOfField x) (regOfField y) := by
  have hop := op.isLt
  have hfamily := family_toNat op
  unfold decodeConditional
  split
  case h_6 => rw [if_pos (by omega)]
  case h_7 hnot => rw [if_neg (fun hlt => hnot (by omega))]
  all_goals omega

/-- An opcode whose row of the decoder's tables names two registers decodes the fields of two registers to them. -/
theorem decodeInstr_regs {op : Byte} {mk : Reg → Reg → Instr}
    (row : ∀ x y, (if op.getLsbD 7 then decodeConditional op x y else decodeUnconditional op x y) =
      mk (regOfField x) (regOfField y)) (d r : Reg) :
    decodeInstr op (fieldOfReg d ++ fieldOfReg r) = mk d r := by
  rw [decodeInstr_append, row, regOfField_fieldOfReg, regOfField_fieldOfReg]

theorem decodeInstr_unassigned_low (op : Byte) (d r : Reg) (hlo : 0x22 ≤ op.toNat) (hhi : op.toNat ≤ 0x7f) :
    decodeInstr op (fieldOfReg d ++ fieldOfReg r) =
      if op.toNat < 0x24 then .unassigned22 op d r
      else if op.toNat < 0x28 then .unassigned24 op d r
      else if op.toNat < 0x30 then .unassigned28 op d r
      else if op.toNat < 0x40 then .unassigned30 op d r
      else .unassigned40 op d r := by
  have hbit : ¬ op.getLsbD 7 = true := by
    rw [getLsbD_seven_iff]
    omega
  rw [decodeInstr_append, if_neg hbit, decodeUnconditional_unassigned _ _ _ hlo, regOfField_fieldOfReg,
    regOfField_fieldOfReg]

theorem decodeInstr_unassigned_high (op : Byte) (d r : Reg) (hlo : 0xd0 ≤ op.toNat) :
    decodeInstr op (fieldOfReg d ++ fieldOfReg r) =
      if op.toNat < 0xe0 then .unassignedD0 op d r else .unassignedE0 op d r := by
  have hbit : op.getLsbD 7 = true := (getLsbD_seven_iff op).mpr (by omega)
  rw [decodeInstr_append, if_pos hbit, decodeConditional_unassigned _ _ _ hlo, regOfField_fieldOfReg,
    regOfField_fieldOfReg]

/-! ## Decoding an encoded instruction -/

/-- The two bytes of a well-formed instruction decode to it. -/
theorem decodeInstr_opcode_fields (i : Instr) (h : i.wf = true) : decodeInstr i.opcode i.fields = i := by
  cases i <;> rw [Instr.opcode, Instr.fields]
  case csrr d c =>
    rw [decodeInstr_append]
    exact congrArg₂ Instr.csrr (regOfField_fieldOfReg d) (csrOfField_fieldOfCsr c)
  case csrw c r =>
    rw [decodeInstr_append]
    exact congrArg₂ Instr.csrw (csrOfField_fieldOfCsr c) (regOfField_fieldOfReg r)
  case unassigned22 op d r | unassigned24 op d r | unassigned28 op d r | unassigned30 op d r |
      unassigned40 op d r =>
    obtain ⟨hlo, hhi⟩ : _ ∧ _ := (inRange_iff _ _ _).mp h
    simp only [BitVec.reduceToNat] at hlo hhi
    rw [decodeInstr_unassigned_low op d r (by omega) (by omega)]
    simp (disch := omega) only [if_pos, if_neg]
  case unassignedD0 op d r | unassignedE0 op d r =>
    obtain ⟨hlo, hhi⟩ : _ ∧ _ := (inRange_iff _ _ _).mp h
    simp only [BitVec.reduceToNat] at hlo hhi
    rw [decodeInstr_unassigned_high op d r (by omega)]
    simp (disch := omega) only [if_pos, if_neg]
  all_goals exact decodeInstr_regs (fun _ _ => rfl) _ _

/-! ## Encoding a decoded instruction -/

/-- The instruction is one of the table, and these are its opcode and the fields of its register byte. -/
def Instr.EncodesTo (i : Instr) (op : Byte) (x y : BitVec 4) : Prop :=
  i.wf = true ∧ i.opcode = op ∧ i.fields = x ++ y

/-- The two registers that two fields name have these fields. -/
theorem fields_regOfField (x y : BitVec 4) : fieldOfReg (regOfField x) ++ fieldOfReg (regOfField y) = x ++ y := by
  rw [fieldOfReg_regOfField, fieldOfReg_regOfField]

theorem decodeUnconditional_encodesTo (op : Byte) (x y : BitVec 4) (h : op.toNat < 128) :
    (decodeUnconditional op x y).EncodesTo op x y := by
  by_cases hassigned : op.toNat < 0x22
  · unfold decodeUnconditional
    interval_cases hop : op.toNat
    all_goals refine ⟨rfl, (BitVec.eq_of_toNat_eq hop).symm, ?_⟩
    -- The opcodes 4 and 3, `csrw` and `csrr`, have a CSR in one field; the others have two registers.
    on_goal 5 => exact congrArg₂ (· ++ ·) (fieldOfCsr_csrOfField x) (fieldOfReg_regOfField y)
    on_goal 4 => exact congrArg₂ (· ++ ·) (fieldOfReg_regOfField x) (fieldOfCsr_csrOfField y)
    all_goals exact fields_regOfField x y
  · rw [decodeUnconditional_unassigned op x y (by omega)]
    (repeat' split) <;>
      exact ⟨(inRange_iff _ _ _).mpr (by simp only [BitVec.reduceToNat]; omega), rfl, fields_regOfField x y⟩

/-! Each family: `OP` in the upper half of the opcode, `COND` in the lower (R93, R98). -/

theorem decodeExchNF_encodesTo (c x y : BitVec 4) :
    (decodeExchNF c (regOfField x) (regOfField y)).EncodesTo (8#4 ++ c) x y := by
  obtain ⟨k⟩ := c
  fin_cases k <;> exact ⟨rfl, rfl, fields_regOfField x y⟩

theorem decodeLdNF_encodesTo (c x y : BitVec 4) :
    (decodeLdNF c (regOfField x) (regOfField y)).EncodesTo (9#4 ++ c) x y := by
  obtain ⟨k⟩ := c
  fin_cases k <;> exact ⟨rfl, rfl, fields_regOfField x y⟩

theorem decodeLdNFis_encodesTo (c x y : BitVec 4) :
    (decodeLdNFis c (regOfField x) (regOfField y)).EncodesTo (10#4 ++ c) x y := by
  obtain ⟨k⟩ := c
  fin_cases k <;> exact ⟨rfl, rfl, fields_regOfField x y⟩

theorem decodeLdxNFis_encodesTo (c x y : BitVec 4) :
    (decodeLdxNFis c (regOfField x) (regOfField y)).EncodesTo (11#4 ++ c) x y := by
  obtain ⟨k⟩ := c
  fin_cases k <;> exact ⟨rfl, rfl, fields_regOfField x y⟩

theorem decodeMvNF_encodesTo (c x y : BitVec 4) :
    (decodeMvNF c (regOfField x) (regOfField y)).EncodesTo (12#4 ++ c) x y := by
  obtain ⟨k⟩ := c
  fin_cases k <;> exact ⟨rfl, rfl, fields_regOfField x y⟩

theorem Instr.EncodesTo.of_eq {i : Instr} {op op' : Byte} {x y : BitVec 4} (h : i.EncodesTo op x y) (hop : op = op') :
    i.EncodesTo op' x y := hop ▸ h

/-- The upper half of an opcode with bit 7 = 1, from its bits 6:4. -/
theorem append_low_of_family {op : Byte} (hop : 128 ≤ op.toNat) {k : Nat} (hk : (op.extractLsb' 4 3).toNat = k)
    {n : BitVec 4} (hn : n.toNat = 8 + k) : n ++ op.extractLsb' 0 4 = op := by
  have hlt := op.isLt
  have hfamily := family_toNat op
  have hhigh : n = op.extractLsb' 4 4 := by
    apply BitVec.eq_of_toNat_eq
    rw [BitVec.extractLsb'_toNat, Nat.shiftRight_eq_div_pow]
    omega
  rw [hhigh]
  exact BitVec.extractLsb'_append_extractLsb'

theorem decodeConditional_encodesTo (op : Byte) (x y : BitVec 4) (h : 128 ≤ op.toNat) :
    (decodeConditional op x y).EncodesTo op x y := by
  by_cases hassigned : op.toNat < 0xd0
  · have hlt : (op.extractLsb' 4 3).toNat < 5 := by
      rw [family_toNat]
      omega
    unfold decodeConditional
    interval_cases hop : (op.extractLsb' 4 3).toNat
    · exact (decodeExchNF_encodesTo _ x y).of_eq (append_low_of_family h hop rfl)
    · exact (decodeLdNF_encodesTo _ x y).of_eq (append_low_of_family h hop rfl)
    · exact (decodeLdNFis_encodesTo _ x y).of_eq (append_low_of_family h hop rfl)
    · exact (decodeLdxNFis_encodesTo _ x y).of_eq (append_low_of_family h hop rfl)
    · exact (decodeMvNF_encodesTo _ x y).of_eq (append_low_of_family h hop rfl)
  · rw [decodeConditional_unassigned op x y (by omega)]
    split <;> exact ⟨(inRange_iff _ _ _).mpr (by simp only [BitVec.reduceToNat]; omega), rfl, fields_regOfField x y⟩

/-- A decoded pair of bytes encodes to the pair (R90, R94). -/
theorem decodeInstr_encodesTo (op : Byte) (x y : BitVec 4) : (decodeInstr op (x ++ y)).EncodesTo op x y := by
  rw [decodeInstr_append]
  split
  · next h => exact decodeConditional_encodesTo op x y ((getLsbD_seven_iff op).mp h)
  · next h =>
    rw [getLsbD_seven_iff] at h
    exact decodeUnconditional_encodesTo op x y (by omega)

/-- Every register byte is its two fields. -/
theorem fields_append (ds : Byte) : ds.extractLsb' 4 4 ++ ds.extractLsb' 0 4 = ds :=
  BitVec.extractLsb'_append_extractLsb'

theorem decodeInstr_wf (op ds : Byte) : (decodeInstr op ds).wf = true := by
  obtain ⟨hwf, _, _⟩ := decodeInstr_encodesTo op (ds.extractLsb' 4 4) (ds.extractLsb' 0 4)
  rwa [fields_append] at hwf

@[simp] theorem decodeInstr_opcode (op ds : Byte) : (decodeInstr op ds).opcode = op := by
  obtain ⟨_, hop, _⟩ := decodeInstr_encodesTo op (ds.extractLsb' 4 4) (ds.extractLsb' 0 4)
  rwa [fields_append] at hop

@[simp] theorem decodeInstr_fields (op ds : Byte) : (decodeInstr op ds).fields = ds := by
  obtain ⟨_, _, hds⟩ := decodeInstr_encodesTo op (ds.extractLsb' 4 4) (ds.extractLsb' 0 4)
  rwa [fields_append] at hds

/-! ## The statements -/

/-- Settles O1: the two bytes stand in front of the rest, and they decode to the instruction. -/
theorem decodeOfEncode : Obligations.DecodeOfEncode := by
  intro i rest h
  exact congrArg (fun j => Except.ok (j, rest)) (decodeInstr_opcode_fields i h)

/-- Settles O2: no byte is lost, by the opcode and the fields of the decoded instruction. -/
theorem encodeOfDecode : Obligations.EncodeOfDecode := by
  intro op ds
  exact ⟨decodeInstr_wf op ds, by rw [encodeBytes, decodeInstr_opcode, decodeInstr_fields]⟩

/-- Settles O3: each word is a closed pair of bytes. -/
theorem sampleWordsDecode : Obligations.SampleWordsDecode :=
  ⟨rfl, rfl, rfl, rfl, rfl, rfl, rfl⟩

end Sys2Proof

/-! The mnemonics (R97, R100, R105): a table with no name and no opcode twice, read in either direction. -/

namespace Sys2Proof.Machine

/-- In a list with no key twice, looking a key up finds the element that has it. -/
theorem find_key_eq_some_iff {α κ : Type} [DecidableEq κ] {l : List α} {key : α → κ} (h : (l.map key).Nodup) (k : κ)
    (x : α) : l.find? (fun y => decide (key y = k)) = some x ↔ x ∈ l ∧ key x = k := by
  constructor
  · intro hx
    exact ⟨List.mem_of_find?_eq_some hx, by simpa using List.find?_some hx⟩
  · rintro ⟨hx, rfl⟩
    obtain ⟨y, hy⟩ : ∃ y, l.find? (fun y => decide (key y = key x)) = some y :=
      Option.isSome_iff_exists.mp (List.find?_isSome.mpr ⟨x, hx, decide_eq_true rfl⟩)
    have hkey : key y = key x := by simpa using List.find?_some hy
    rwa [List.inj_on_of_nodup_map h (List.mem_of_find?_eq_some hy) hx hkey] at hy

/-- The opcodes that have a mnemonic as numbers: 0x00 to 0x21, then 0x80 to 0xcf. -/
def namedOpcodes : List Nat := List.range 34 ++ List.range' 128 80

theorem mem_namedOpcodes_iff (n : Nat) : n ∈ namedOpcodes ↔ n ≤ 0x21 ∨ (0x80 ≤ n ∧ n ≤ 0xcf) := by
  rw [namedOpcodes, List.mem_append, List.mem_range, List.mem_range'_1]
  omega

theorem namedOpcodes_nodup : namedOpcodes.Nodup := by
  refine List.nodup_range.append List.nodup_range' fun n hlow hhigh => ?_
  rw [List.mem_range] at hlow
  rw [List.mem_range'_1] at hhigh
  omega

/-- The table lists the opcodes in this order. -/
theorem mnemonics_opcodes : mnemonics.map Prod.snd = namedOpcodes.map (BitVec.ofNat 8) := rfl

theorem mem_mnemonics_opcodes_iff (op : Byte) :
    op ∈ mnemonics.map Prod.snd ↔ op.toNat ≤ 0x21 ∨ (0x80 ≤ op.toNat ∧ op.toNat ≤ 0xcf) := by
  rw [mnemonics_opcodes, List.mem_map, ← mem_namedOpcodes_iff]
  constructor
  · rintro ⟨n, hn, rfl⟩
    have hlt : n < 256 := by
      rw [mem_namedOpcodes_iff] at hn
      omega
    rwa [BitVec.toNat_ofNat, Nat.mod_eq_of_lt hlt]
  · exact fun h => ⟨op.toNat, h, by rw [BitVec.ofNat_toNat, BitVec.setWidth_eq]⟩

theorem mnemonics_opcodes_nodup : (mnemonics.map Prod.snd).Nodup := by
  rw [mnemonics_opcodes]
  refine namedOpcodes_nodup.map_on fun m hm n hn heq => ?_
  have hval := congrArg BitVec.toNat heq
  rw [mem_namedOpcodes_iff] at hm hn
  rw [BitVec.toNat_ofNat, BitVec.toNat_ofNat] at hval
  omega

theorem mnemonics_names_nodup : (mnemonics.map Prod.fst).Nodup := by decide

theorem opcodeNamed_eq_some_iff (m : Text) (op : Byte) : opcodeNamed m = some op ↔ (m, op) ∈ mnemonics := by
  rw [opcodeNamed, Option.map_eq_some_iff]
  simp only [find_key_eq_some_iff mnemonics_names_nodup]
  constructor
  · rintro ⟨p, ⟨hp, rfl⟩, rfl⟩
    exact hp
  · exact fun h => ⟨(m, op), ⟨h, rfl⟩, rfl⟩

theorem mnemonicOf_eq_some_iff (m : Text) (op : Byte) : mnemonicOf op = some m ↔ (m, op) ∈ mnemonics := by
  rw [mnemonicOf, Option.map_eq_some_iff]
  simp only [find_key_eq_some_iff mnemonics_opcodes_nodup]
  constructor
  · rintro ⟨p, ⟨hp, rfl⟩, rfl⟩
    exact hp
  · exact fun h => ⟨(m, op), ⟨h, rfl⟩, rfl⟩

/-- Settles O4: either direction says that the table pairs the two, and the opcodes of the table are counted off. -/
theorem mnemonicsNameOpcodes : Obligations.MnemonicsNameOpcodes := by
  refine ⟨fun m op => (opcodeNamed_eq_some_iff m op).trans (mnemonicOf_eq_some_iff m op).symm, fun op => ?_⟩
  rw [← mem_mnemonics_opcodes_iff, List.mem_map]
  constructor
  · intro h
    obtain ⟨m, hm⟩ := Option.isSome_iff_exists.mp h
    exact ⟨(m, op), (mnemonicOf_eq_some_iff m op).mp hm, rfl⟩
  · rintro ⟨p, hp, rfl⟩
    exact Option.isSome_iff_exists.mpr ⟨p.1, (mnemonicOf_eq_some_iff p.1 p.2).mpr hp⟩

end Sys2Proof.Machine

/-! What instructions and events leave alone (10_state.md, 60_exceptions.md): each claim is read off the list of what an
instruction can do (`Effect`), and off the like list for events (`EventEffect`). -/

namespace Sys2Proof.Machine

/-! ## Instructions -/

theorem Untouched.sameOutside {s t : State} (h : Untouched s t) : SameOutside s t :=
  ⟨h.agenda, h.replies, h.params, h.run⟩

/-- Nothing but the CPU, RAM and the keyboard controller changes by an instruction. -/
theorem Effect.outside {i : Instr} {s t : State} (h : Effect i s t) :
    SameOutside s t ∧ t.clk = s.clk ∧ t.display = s.display := by
  cases h with
  | quiet hu _ => exact ⟨hu.sameOutside, hu.clk, hu.display⟩
  | raise e ht => simp [ht, SameOutside]
  | csrw c r _ ht => simp [ht, SameOutside]
  | sto d r _ ht => simp [ht, SameOutside]
  | stob d r _ ht => simp [ht, SameOutside]
  | ddsto d r u v _ hu _ _ ht =>
    simp [ht, SameOutside, hu.agenda, hu.replies, hu.params, hu.run, hu.clk, hu.display]

/-- Settles O13: whatever the instruction can do, it is none of these. -/
theorem instructionsLeaveOutsideAlone : Obligations.InstructionsLeaveOutsideAlone :=
  fun i s t h => (exec_effect i s t h).outside

/-- Settles O14: RAM and the keyboard change by a store alone. -/
theorem onlyStoresWriteMemory : Obligations.OnlyStoresWriteMemory := by
  intro i s t hnot h
  cases exec_effect i s t h with
  | quiet hu _ => exact ⟨hu.mem, hu.kbd⟩
  | raise e ht => simp [ht]
  | csrw c r _ ht => simp [ht]
  | sto d r hi _ => exact absurd hi (hnot d r).1
  | stob d r hi _ => exact absurd hi (hnot d r).2.1
  | ddsto d r u v hi _ _ _ _ => exact absurd hi (hnot d r).2.2

theorem State.ifImplemented_completes (s : State) (o : OptionalInstr) (e : State) :
    ∃ t, s.ifImplemented o e = .next t := by
  obtain ⟨_, h⟩ | ⟨_, h⟩ := s.ifImplemented_cases o e <;> exact ⟨_, h⟩

/-- Settles O15: an optional instruction completes either way, every other one has a next state as it stands. -/
theorem everyInstructionCompletes : Obligations.EveryInstructionCompletes := by
  intro i s
  cases i
  case ddsto | ldisx | neg | mulss | mulsu | mulus | muluu | exchnf0 | exchnf1 | exchnf2 | exchnf3 | exchnz | exchnc |
      exchns | exchno | exchf0 | exchf1 | exchf2 | exchf3 | exchz | exchc | exchs | excho | ldxnf0is | ldxnf1is |
      ldxnf2is | ldxnf3is | ldxnzis | ldxncis | ldxnsis | ldxnois | ldxf0is | ldxf1is | ldxf2is | ldxf3is | ldxzis |
      ldxcis | ldxsis | ldxois =>
    exact s.ifImplemented_completes _ _
  all_goals exact ⟨_, rfl⟩

/-- The low byte of a word is its bits 0 to 7. -/
theorem lowByte_congr {v w : Word} (h : ∀ j, j < 8 → v.getLsbD j = w.getLsbD j) : lowByte v = lowByte w := by
  apply BitVec.eq_of_getLsbD_eq
  intro j hj
  rw [lowByte, lowByte, BitVec.getLsbD_extractLsb', BitVec.getLsbD_extractLsb', Nat.zero_add, h j hj]

theorem SameCsrsButH.lowByte_csr0 {s t : State} (h : SameCsrsButH s t) : lowByte t.csrs.csr0 = lowByte s.csrs.csr0 :=
  lowByte_congr fun j hj => h.1 j (by omega)

/-- The two exceptions of the hardware (R41). -/
theorem State.raise_raises_one_or_two (s : State) (e : Reason) : Raises s (s.raise e) 1 ∨ Raises s (s.raise e) 2 := by
  cases e
  case izero => exact .inl (s.raise_raises .izero)
  case iinstr => exact .inr (s.raise_raises .iinstr)

/-- What an instruction can do to the CSRs: `H` alone, an exception, or a `csrw`. -/
theorem Effect.csrs {i : Instr} {s t : State} (h : Effect i s t) :
    SameCsrsButH s t ∨ (∃ e, t = s.raise e) ∨ ∃ c r, i = .csrw c r ∧ t = s.csrWrite c (s.reg r) := by
  cases h with
  | quiet hu _ => exact .inl hu.csrs
  | raise e ht => exact .inr (.inl ⟨e, ht⟩)
  | csrw c r hi ht => exact .inr (.inr ⟨c, r, hi, ht⟩)
  | sto d r _ ht | stob d r _ ht => exact .inl (SameCsrsButH.of_eq (by simp [ht]))
  | ddsto d r u v _ hu _ _ ht => exact .inl (hu.csrs.trans (SameCsrsButH.of_eq (by simp [ht])))

/-- What an instruction can do to the halt: leave it, or raise an exception (R49). -/
theorem Effect.halted {i : Instr} {s t : State} (h : Effect i s t) :
    t.halted = s.halted ∨ ∃ e, t = s.raise e := by
  cases h with
  | quiet hu _ => exact .inl hu.halted
  | raise e ht => exact .inr ⟨e, ht⟩
  | csrw c r _ ht | sto d r _ ht | stob d r _ ht => exact .inl (by simp [ht])
  | ddsto d r u v _ hu _ _ ht => exact .inl (by simp [ht, hu.halted])

/-- No instruction brings RAM out of its canonical form. -/
theorem Effect.mem_wf {i : Instr} {s t : State} (h : Effect i s t) (hw : s.mem.wf = true) : t.mem.wf = true := by
  cases h with
  | quiet hu _ => rwa [hu.mem]
  | raise e ht => simpa [ht] using hw
  | csrw c r _ ht => simpa [ht] using hw
  | sto d r _ ht => rw [ht]; exact s.writeWord_wf _ _ _ hw
  | stob d r _ ht => rw [ht]; exact s.writeByte_wf _ _ _ hw
  | ddsto d r u v _ hu _ _ ht => rw [ht]; exact u.writeWord_wf _ _ _ (by rwa [hu.mem])

/-! ## Events -/

/-- Everything an event can do to the CPU and to RAM. -/
inductive EventEffect (e : Event) (s t : State) : Prop
  /-- A frame, and the CDI's other commands: nothing but RAM, the devices and what is outside. -/
  | quiet : t.regs = s.regs → t.csrs = s.csrs → t.halted = s.halted → (s.mem.wf = true → t.mem.wf = true) →
      EventEffect e s t
  /-- A device's interrupt on bit `b` of `f` (R238), its device `u` having changed. -/
  | interrupt (b : Nat) (u : State) : b = 10 ∨ b = 11 → u.regs = s.regs → u.csrs = s.csrs → u.halted = s.halted →
      u.mem = s.mem → t = u.deviceInterrupt b → EventEffect e s t
  /-- The host sets a register (R273). -/
  | setReg (r : Reg) (v : Word) : e = .cdi (.setReg r v) → t = s.cdiSetReg r v → EventEffect e s t
  /-- The host sets a CSR (R273). -/
  | setCsr (c : Csr) (v : Word) : e = .cdi (.setCsr c v) → t = s.csrWrite c v → EventEffect e s t
  /-- A reset (R280). -/
  | reset : e = .reset → t = s.resetEvent → EventEffect e s t

/-- What a frame can do: count it, or begin a new phase (R269). -/
theorem State.frame_eq_putDisplay (s : State) : ∃ d, s.frame = s.putDisplay d := by
  unfold State.frame
  split
  · exact ⟨s.display, rfl⟩
  · split <;> exact ⟨_, rfl⟩

theorem cdi_effect (c : CdiCommand) (s : State) : EventEffect (.cdi c) s (s.cdi c) := by
  cases c with
  | setReg r v => exact .setReg r v rfl rfl
  | setCsr c v => exact .setCsr c v rfl rfl
  | readReg r => exact .quiet rfl rfl rfl id
  | readCsr c => exact .quiet rfl rfl rfl id
  | readMem a =>
    exact .quiet (s.readByte_regs a) (s.readByte_csrs a) (s.readByte_halted a) (fun h => by simpa [State.cdi] using h)
  | writeMem a b =>
    exact .quiet (by simp [State.cdi]) (by simp [State.cdi]) (by simp [State.cdi]) (s.writeByte_wf _ a b)
  | stop => exact .quiet rfl rfl rfl id
  | run => exact .quiet rfl rfl rfl id
  | step => exact .quiet rfl rfl rfl id

/-- The effect of every event that gives a next state. -/
theorem applyEvent_effect (e : Event) (s t : State) (h : applyEvent e s = .next t) : EventEffect e s t := by
  cases e with
  | clockTick =>
    cases h
    exact .interrupt 10 (s.putClk (s.clk + 1)) (.inl rfl) rfl rfl rfl rfl rfl
  | keyReceived b =>
    simp only [applyEvent, State.keyReceived] at h
    split at h <;> cases h
    exact .interrupt 11 (s.putKbd { s.kbd with rxd := b, received := true }) (.inr rfl) rfl rfl rfl rfl rfl
  | keySent =>
    simp only [applyEvent, State.keySent] at h
    split at h <;> cases h
    exact .interrupt 11 (s.putKbd { s.kbd with ready := true }) (.inr rfl) rfl rfl rfl rfl rfl
  | frame =>
    cases h
    obtain ⟨d, hd⟩ := s.frame_eq_putDisplay
    rw [hd]
    exact .quiet rfl rfl rfl id
  | cdi c =>
    cases h
    exact cdi_effect c s
  | reset =>
    cases h
    exact .reset rfl rfl

/-! ## A device's interrupt and the host's register (R238, R249, R273) -/

theorem State.deviceInterrupt_csrs (s : State) (b : Nat) :
    (s.deviceInterrupt b).csrs = { s.csrs with csr0 := withH s.csrs.csr0 true } := rfl
@[simp] theorem State.deviceInterrupt_halted (s : State) (b : Nat) : (s.deviceInterrupt b).halted = s.halted := rfl
@[simp] theorem State.deviceInterrupt_mem (s : State) (b : Nat) : (s.deviceInterrupt b).mem = s.mem := rfl
theorem State.deviceInterrupt_reg (s : State) (b : Nat) (q : Reg) :
    (s.deviceInterrupt b).reg q = if q = .f then withBit s.f b true else s.reg q := s.putReg_reg .f q _
theorem State.deviceInterrupt_f (s : State) (b : Nat) : (s.deviceInterrupt b).f = withBit s.f b true :=
  s.deviceInterrupt_reg b .f

theorem State.deviceInterrupt_sameCsrsButH (s : State) (b : Nat) :
    (s.deviceInterrupt b).csrs.csr0.getLsbD 8 = true ∧ SameCsrsButH s (s.deviceInterrupt b) :=
  sameCsrsButH_withH s _ true (s.deviceInterrupt_csrs b)

/-- The host sets the register and nothing else but the halt. -/
theorem State.cdiSetReg_cases (s : State) (r : Reg) (v : Word) :
    (r = .f ∧ v.getLsbD 9 = false ∧ s.cdiSetReg r v = (s.putReg r v).putHalted false) ∨
    (¬ (r = .f ∧ v.getLsbD 9 = false) ∧ s.cdiSetReg r v = s.putReg r v) := by
  unfold State.cdiSetReg
  split
  · next h => exact .inl ⟨h.1, h.2, rfl⟩
  · next h => exact .inr ⟨h, rfl⟩

@[simp] theorem State.cdiSetReg_csrs (s : State) (r : Reg) (v : Word) : (s.cdiSetReg r v).csrs = s.csrs := by
  obtain ⟨_, _, h⟩ | ⟨_, h⟩ := s.cdiSetReg_cases r v <;> rw [h] <;> rfl
@[simp] theorem State.cdiSetReg_mem (s : State) (r : Reg) (v : Word) : (s.cdiSetReg r v).mem = s.mem := by
  obtain ⟨_, _, h⟩ | ⟨_, h⟩ := s.cdiSetReg_cases r v <;> rw [h] <;> rfl
@[simp] theorem State.cdiSetReg_regs (s : State) (r : Reg) (v : Word) : (s.cdiSetReg r v).regs = s.regs.set r v := by
  obtain ⟨_, _, h⟩ | ⟨_, h⟩ := s.cdiSetReg_cases r v <;> rw [h] <;> rfl
theorem State.cdiSetReg_reg (s : State) (r q : Reg) (v : Word) :
    (s.cdiSetReg r v).reg q = if q = r then v else s.reg q := by
  rw [State.reg, State.cdiSetReg_regs]
  exact s.putReg_reg r q v

/-! ## The halt -/

/-- Settles O12: of all that an instruction can do only an exception touches the halt, and of all that an event can do
nothing sets it. -/
theorem haltBeginsOnlyByException : Obligations.HaltBeginsOnlyByException := by
  refine ⟨fun i s t hs h ht => ?_, fun e s t hs h => ?_⟩
  · obtain hsame | ⟨e, rfl⟩ := (exec_effect i s t h).halted
    · rw [hsame, hs] at ht
      cases ht
    · rw [State.raise_halted, hs] at ht
      exact ⟨by simpa using ht, s.raise_raises_one_or_two e⟩
  · cases applyEvent_effect e s t h with
    | quiet _ _ hh _ => rw [hh, hs]
    | interrupt b u _ _ _ hh _ ht => rw [ht, State.deviceInterrupt_halted, hh, hs]
    | setReg r v _ ht =>
      obtain ⟨_, _, hset⟩ | ⟨_, hset⟩ := s.cdiSetReg_cases r v
      · rw [ht, hset, State.putHalted_halted]
      · rw [ht, hset, State.putReg_halted, hs]
    | setCsr c v _ ht => rw [ht, State.csrWrite_halted, hs]
    | reset _ ht => rw [ht]; rfl

theorem cpuTurn_of_halted {s : State} (h : s.halted = true) : cpuTurn s = .next s := by
  rw [cpuTurn, h, if_pos rfl]

theorem cpuTurn_of_stopped {s : State} (h : s.run = .stopped) : cpuTurn s = .next s := by
  rw [cpuTurn, h]
  split <;> rfl

theorem cpuTurn_of_running {s : State} (h : s.halted = false) (hr : s.run = .running) : cpuTurn s = cpuStep s := by
  rw [cpuTurn, h, hr]
  rfl

theorem cpuTurn_of_singleStep {s : State} (h : s.halted = false) (hr : s.run = .singleStep) :
    cpuTurn s = stopAfter (cpuStep s) := by
  rw [cpuTurn, h, hr]
  rfl

/-- Settles O10: the turn is the CPU's, which does nothing with it. -/
theorem haltedOrStoppedTakesNoStep : Obligations.HaltedOrStoppedTakesNoStep := by
  intro s h hturn
  rw [step_cpu s hturn]
  obtain hhalted | hstopped := h
  · exact cpuTurn_of_halted hhalted
  · exact cpuTurn_of_stopped hstopped

/-- The next turn is an event's, or not. -/
theorem State.agenda_event_or_cpu (s : State) :
    (∃ e rest, s.agenda = .event e :: rest) ∨ ∀ e rest, s.agenda ≠ .event e :: rest := by
  rw [or_iff_not_imp_left]
  intro h e rest heq
  exact h ⟨e, rest, heq⟩

/-- Settles O11: a halted CPU stays halted in its own turn, and of all that an event can do two end the halt. -/
theorem haltEndsOnlyByResetOrHost : Obligations.HaltEndsOnlyByResetOrHost := by
  intro s t hs h ht
  obtain ⟨e, rest, hagenda⟩ | hturn := s.agenda_event_or_cpu
  · rw [step_event s e rest hagenda] at h
    cases applyEvent_effect e _ t h with
    | quiet _ _ hh _ => simp [hh, hs] at ht
    | interrupt b u _ _ _ hh _ heq => simp [heq, hh, hs] at ht
    | setReg r v he heq =>
      obtain ⟨rfl, hv, _⟩ | ⟨_, hset⟩ := (s.putAgenda rest).cdiSetReg_cases r v
      · exact .inr ⟨v, rest, by rw [hagenda, he], hv⟩
      · simp [heq, hset, hs] at ht
    | setCsr c v _ heq => simp [heq, hs] at ht
    | reset he _ => exact .inl ⟨rest, by rw [hagenda, he]⟩
  · rw [step_cpu s hturn, cpuTurn_of_halted (by simpa using hs)] at h
    cases h
    simp [hs] at ht

/-! ## The CSRs -/

/-- The temporaries `csr1` to `csr5` hold the same (R43). -/
def SameTemporaries (s t : State) : Prop :=
  t.csrs.csr1 = s.csrs.csr1 ∧ t.csrs.csr2 = s.csrs.csr2 ∧ t.csrs.csr3 = s.csrs.csr3 ∧
  t.csrs.csr4 = s.csrs.csr4 ∧ t.csrs.csr5 = s.csrs.csr5

theorem SameCsrsButH.sameTemporaries {s t : State} (h : SameCsrsButH s t) : SameTemporaries s t := h.2

theorem State.raise_sameTemporaries (s : State) (e : Reason) : SameTemporaries s (s.raise e) := by
  rw [SameTemporaries, State.raise_csrs]
  exact ⟨rfl, rfl, rfl, rfl, rfl⟩

/-- What an event does to the CSRs: `H` alone, unless the host sets one or a reset clears them. -/
theorem EventEffect.csrs {e : Event} {s t : State} (h : EventEffect e s t) (hnot : e ≠ .reset) :
    SameCsrsButH s t ∨ ∃ c v, e = .cdi (.setCsr c v) ∧ t = s.csrWrite c v := by
  cases h with
  | quiet _ hc _ _ => exact .inl (SameCsrsButH.of_eq hc)
  | interrupt b u _ _ hc _ _ ht =>
    rw [ht]
    exact .inl ((SameCsrsButH.of_eq hc).trans (u.deviceInterrupt_sameCsrsButH b).2)
  | setReg r v _ ht => exact .inl (SameCsrsButH.of_eq (by rw [ht, State.cdiSetReg_csrs]))
  | setCsr c v he ht => exact .inr ⟨c, v, he, ht⟩
  | reset he _ => exact absurd he hnot

/-- Settles O16: nothing else that an instruction or an event can do reaches a temporary; a written one reads back. -/
theorem temporariesChangedOnlyByCsrw : Obligations.TemporariesChangedOnlyByCsrw := by
  refine ⟨fun i s t hnot h => ?_, fun e s t hnot hreset h => ?_, fun c hc r s => ?_, fun c hc s => ?_⟩
  · obtain hsame | ⟨e, rfl⟩ | ⟨c, r, hi, _⟩ := (exec_effect i s t h).csrs
    · exact hsame.sameTemporaries
    · exact s.raise_sameTemporaries e
    · exact absurd hi (hnot c r)
  · obtain hsame | ⟨c, v, he, _⟩ := (applyEvent_effect e s t h).csrs hreset
    · exact hsame.sameTemporaries
    · exact absurd he (hnot c v)
  · refine ⟨_, exec_csrw c r s, ?_⟩
    simp only [List.mem_cons, List.not_mem_nil, or_false] at hc
    rcases hc with rfl | rfl | rfl | rfl | rfl <;> rfl
  · simp only [List.mem_cons, List.not_mem_nil, or_false] at hc
    rcases hc with rfl | rfl | rfl | rfl | rfl | rfl | rfl | rfl | rfl | rfl <;> rfl

/-- Only a write to `csr0` changes `csr0`. -/
theorem State.csrWrite_csr0_of_ne (s : State) {c : Csr} (v : Word) (h : c ≠ .csr0) :
    (s.csrWrite c v).csrs.csr0 = s.csrs.csr0 := by
  cases c
  case csr0 => exact absurd rfl h
  all_goals rfl

/-- Settles O17: REASON lies beside `H`; of all that an instruction can do only an exception and `csrw csr0` write it. -/
theorem reasonChangedOnlyByException : Obligations.ReasonChangedOnlyByException := by
  refine ⟨fun i s t hnot h => ?_, fun e s t hnot hreset h => ?_, fun s => ?_⟩
  · obtain hsame | ⟨e, rfl⟩ | ⟨c, r, rfl, rfl⟩ := (exec_effect i s t h).csrs
    · exact .inl hsame.lowByte_csr0
    · exact .inr (s.raise_raises_one_or_two e)
    · have hc : c ≠ .csr0 := fun hc => hnot r (by rw [hc])
      exact .inl (by rw [s.csrWrite_csr0_of_ne _ hc])
  · obtain hsame | ⟨c, v, rfl, rfl⟩ := (applyEvent_effect e s t h).csrs hreset
    · exact hsame.lowByte_csr0
    · have hc : c ≠ .csr0 := fun hc => hnot v (by rw [hc])
      rw [s.csrWrite_csr0_of_ne _ hc]
  · exact (s.testInterrupts_untouched.trans (State.fetch_untouched _)).csrs.lowByte_csr0

end Sys2Proof.Machine

/-! Soundness of every reachable state, and a turn of the CPU (R40, R71, R231, R246): the invariant is kept by each
operation a turn is made of. -/

namespace Sys2Proof.Machine

/-! ## The turn of a CPU that runs (R246) -/

/-- The interrupt test and the fetch, which come before the instruction. -/
theorem State.fetched_untouched (s : State) : Untouched s s.testInterrupts.fetch.2 :=
  s.testInterrupts_untouched.trans (State.fetch_untouched _)

/-- What a turn of the CPU that answers a next state can do: nothing, or an instruction after the test and the fetch, and
then a stop in single-step mode. -/
theorem cpuTurn_cases {s t : State} (h : cpuTurn s = .next t) :
    t = s ∨ (s.halted = false ∧ ∃ (i : Instr) (v : State), exec i s.testInterrupts.fetch.2 = .next v ∧
      (t = v ∨ t = v.putRun .stopped)) := by
  cases hhalted : s.halted with
  | true =>
    rw [cpuTurn_of_halted hhalted] at h
    cases h
    exact .inl rfl
  | false =>
    cases hrun : s.run with
    | stopped =>
      rw [cpuTurn_of_stopped hrun] at h
      cases h
      exact .inl rfl
    | running =>
      rw [cpuTurn_of_running hhalted hrun] at h
      exact .inr ⟨rfl, _, t, h, .inl rfl⟩
    | singleStep =>
      rw [cpuTurn_of_singleStep hhalted hrun] at h
      cases hstep : cpuStep s with
      | next v =>
        rw [hstep] at h
        cases h
        exact .inr ⟨rfl, _, v, hstep, .inr rfl⟩
      | fault r => rw [hstep] at h; cases h
      | refused r => rw [hstep] at h; cases h

/-! ## The invariant -/

/-- The reserved bits of `csr0` are 0 (R40). -/
theorem reserved_eq_zero_iff (v : Word) : v &&& 0xfe00#16 = 0 ↔ ∀ j, 9 ≤ j → v.getLsbD j = false := by
  rw [← not_iff_not, ← Ne, ← bne_iff_ne, pending_ne_zero_iff]
  constructor
  · rintro ⟨j, h9, _, hset⟩ hclear
    rw [hclear j h9] at hset
    cases hset
  · intro h
    by_contra hnone
    refine h fun j h9 => Bool.eq_false_iff.mpr fun hset => hnone ⟨j, h9, ?_, hset⟩
    by_contra h15
    rw [BitVec.getLsbD_of_ge v j (by omega)] at hset
    cases hset

/-- Soundness bit by bit. -/
theorem sound_iff (s : State) : Sound s ↔
    s.mem.wf = true ∧ (∀ j, 9 ≤ j → s.csrs.csr0.getLsbD j = false) ∧ (s.halted = true → s.exc = true) := by
  rw [Sound, reserved_eq_zero_iff]

/-- What keeps the reserved bits of `csr0`, halts no CPU and leaves `exc` set while one is halted keeps soundness. -/
theorem Sound.of_kept {s t : State} (hs : Sound s) (hw : t.mem.wf = true)
    (hc : ∀ j, 9 ≤ j → t.csrs.csr0.getLsbD j = s.csrs.csr0.getLsbD j)
    (hh : t.halted = true → s.halted = true ∧ (s.exc = true → t.exc = true)) : Sound t := by
  obtain ⟨_, hreserved, hexc⟩ := (sound_iff s).mp hs
  refine (sound_iff t).mpr ⟨hw, fun j h9 => by rw [hc j h9, hreserved j h9], fun ht => ?_⟩
  obtain ⟨hhalted, hkept⟩ := hh ht
  exact hkept (hexc hhalted)

theorem Sound.of_not_halted {s t : State} (hs : Sound s) (hw : t.mem.wf = true)
    (hc : ∀ j, 9 ≤ j → t.csrs.csr0.getLsbD j = s.csrs.csr0.getLsbD j) (hh : t.halted = false) : Sound t :=
  hs.of_kept hw hc fun h => by rw [hh] at h; cases h

/-- A reset leaves the reserved bits of `csr0` 0, whatever it leaves in the others (R40, log 3). -/
theorem State.resetEvent_csr0_reserved (s : State) (j : Nat) (h : 9 ≤ j) :
    s.resetEvent.csrs.csr0.getLsbD j = false := by
  have hcsr0 : s.resetEvent.csrs.csr0 = Config.freeWord s.draws &&& 0x01ff#16 := rfl
  rw [hcsr0, BitVec.getLsbD_and, csr0Mask_getLsbD, decide_eq_false (by omega), Bool.and_false]

theorem Sound.raise {s : State} (hs : Sound s) (e : Reason) : Sound (s.raise e) := by
  obtain ⟨hw, hreserved, _⟩ := (sound_iff s).mp hs
  obtain ⟨_, _, hcsr0, _, hexc, _⟩ := s.raise_raises e
  exact (sound_iff _).mpr
    ⟨by rwa [State.raise_mem], fun j h9 => by rw [hcsr0 j h9, hreserved j h9], fun _ => hexc⟩

/-- A write to a CSR leaves the upper half of `csr0` (R39). -/
theorem State.csrWrite_csr0_high (s : State) (c : Csr) (v : Word) (j : Nat) (h : 8 ≤ j) :
    (s.csrWrite c v).csrs.csr0.getLsbD j = s.csrs.csr0.getLsbD j := by
  by_cases hc : c = .csr0
  · rw [hc, State.csrWrite, State.putCsr0_csrs, wordOf_highByte_lowByte_getLsbD, if_neg (by omega)]
  · rw [s.csrWrite_csr0_of_ne v hc]

/-- An instruction keeps a CPU that is not halted sound. -/
theorem Sound.exec {i : Instr} {s t : State} (hs : Sound s) (hh : s.halted = false) (h : exec i s = .next t) :
    Sound t := by
  have heffect := exec_effect i s t h
  obtain hhalted | ⟨e, rfl⟩ := heffect.halted
  · refine hs.of_not_halted (heffect.mem_wf hs.1) ?_ (hhalted.trans hh)
    obtain hsame | ⟨e, rfl⟩ | ⟨c, r, _, rfl⟩ := heffect.csrs
    · exact fun j h9 => hsame.1 j (by omega)
    · exact (s.raise_raises e).2.2.1
    · exact fun j h9 => s.csrWrite_csr0_high c _ j (by omega)
  · exact hs.raise e

theorem Sound.cpuTurn {s t : State} (hs : Sound s) (h : cpuTurn s = .next t) : Sound t := by
  obtain rfl | ⟨hh, i, v, hexec, ht⟩ := cpuTurn_cases h
  · exact hs
  · have hu := s.fetched_untouched
    have hfetched : Sound s.testInterrupts.fetch.2 :=
      hs.of_not_halted (by rw [hu.mem]; exact hs.1) (fun j h9 => hu.csrs.1 j (by omega)) (hu.halted.trans hh)
    have hv : Sound v := hfetched.exec (hu.halted.trans hh) hexec
    obtain rfl | rfl := ht
    · exact hv
    · exact hv

/-- The host's value of `f` ends the halt or has `exc` set (R249). -/
theorem State.cdiSetReg_halted (s : State) (r : Reg) (v : Word) (h : (s.cdiSetReg r v).halted = true) :
    s.halted = true ∧ (s.exc = true → (s.cdiSetReg r v).exc = true) := by
  obtain ⟨_, _, hset⟩ | ⟨hnot, hset⟩ := s.cdiSetReg_cases r v
  · rw [hset] at h
    cases h
  · rw [hset] at h ⊢
    refine ⟨h, fun hexc => ?_⟩
    rw [State.exc, State.putReg_f]
    split
    · next hr => exact Bool.eq_true_of_not_eq_false fun hv => hnot ⟨hr.symm, hv⟩
    · exact hexc

/-- No event takes the state out of soundness. -/
theorem Sound.applyEvent {e : Event} {s t : State} (hs : Sound s) (h : applyEvent e s = .next t) : Sound t := by
  have hw : s.mem.wf = true := hs.1
  cases applyEvent_effect e s t h with
  | quiet hr hc hh hm =>
    have hexc : t.exc = s.exc := congrArg (fun x => (Regs.get x .f).getLsbD 9) hr
    exact hs.of_kept (hm hw) (fun j _ => by rw [hc]) fun ht => ⟨hh ▸ ht, fun h9 => hexc.trans h9⟩
  | interrupt b u hb hr hc hh hm ht =>
    subst ht
    have hexc : (u.deviceInterrupt b).exc = s.exc := by
      rw [State.exc, u.deviceInterrupt_f, withBit_of_ne u.f b 9 true (by omega) (by omega)]
      exact congrArg (fun x => (Regs.get x .f).getLsbD 9) hr
    refine hs.of_kept (by rwa [State.deviceInterrupt_mem, hm]) (fun j h9 => ?_) fun ht =>
      ⟨by rwa [State.deviceInterrupt_halted, hh] at ht, fun h9 => hexc.trans h9⟩
    rw [(u.deviceInterrupt_sameCsrsButH b).2.1 j (by omega), hc]
  | setReg r v _ ht =>
    subst ht
    exact hs.of_kept (by rwa [State.cdiSetReg_mem]) (fun j _ => by rw [State.cdiSetReg_csrs]) (s.cdiSetReg_halted r v)
  | setCsr c v _ ht =>
    subst ht
    refine hs.of_kept (by rwa [State.csrWrite_mem]) (fun j h9 => s.csrWrite_csr0_high c v j (by omega)) fun ht =>
      ⟨by rwa [State.csrWrite_halted] at ht, fun h9 => ?_⟩
    rwa [State.exc, State.f, State.csrWrite_reg]
  | reset _ ht =>
    subst ht
    exact (sound_iff _).mpr ⟨hw, s.resetEvent_csr0_reserved, fun hhalted => by cases hhalted⟩

/-- Settles O5: a step is an event or a turn of the CPU, and both keep the invariant. -/
theorem stepKeepsInvariant : Obligations.StepKeepsInvariant := by
  intro s t hs h
  obtain ⟨e, rest, hagenda⟩ | hturn := s.agenda_event_or_cpu
  · rw [step_event s e rest hagenda] at h
    exact Sound.applyEvent (s := s.putAgenda rest) hs h
  · rw [step_cpu s hturn] at h
    exact Sound.cpuTurn (s := s.putAgenda s.agenda.tail) hs h

/-- Settles O6: at power-up nothing is halted and the CSRs are 0, and the image is filled in canonical form. -/
theorem invariantAtReset : Obligations.InvariantAtReset := by
  have hcsr0 : (0 : Word) &&& 0xfe00#16 = 0 := by decide
  have powerUp (build : Params) (image : Word × List Byte) (others : Memory) (hw : others.wf = true) :
      Sound (State.powerUp build image others) :=
    ⟨Memory.wf_fill image.2 others image.1.toNat hw, hcsr0, fun h => by cases h⟩
  refine ⟨?_, powerUp⟩
  rw [← State.powerUp_nil 0]
  exact powerUp _ _ _ rfl

/-! ## What a running CPU executes (R26, R246) -/

/-- Two bytes decode to the instruction that `decodeInstr` gives. -/
theorem decode_pair_eq_ok_iff (op ds : Byte) (i : Instr) : decode [op, ds] = .ok (i, []) ↔ decodeInstr op ds = i := by
  rw [decode, Except.ok.injEq, Prod.mk.injEq]
  exact and_iff_left rfl

/-- The CPU's step where the instruction lies in RAM. -/
theorem cpuStep_of_wordInRam {s : State} (h : WordInRam s.testInterrupts.pc) :
    cpuStep s = exec (decodeInstr (s.ram s.testInterrupts.pc) (s.ram (s.testInterrupts.pc + 1)))
      (s.testInterrupts.putReg .pc (s.testInterrupts.pc + 2)) := by
  have hmem : ∀ a, s.testInterrupts.ram a = s.ram a := fun a => by
    rw [State.ram, s.testInterrupts_untouched.mem, State.ram]
  rw [cpuStep, State.fetch_ram _ h, hmem, hmem]

/-- No handler is entered with interrupts disabled or nothing pending. -/
theorem State.testInterrupts_of_not_due {s : State}
    (h : s.ie = false ∨ ∀ j, 9 ≤ j → j ≤ 15 → s.f.getLsbD j = false) : s.testInterrupts = s := by
  obtain ⟨_, heq⟩ | ⟨hdue, _⟩ := s.testInterrupts_cases
  · exact heq
  · obtain ⟨hie, j, h9, h15, hset⟩ := s.entryDue_iff.mp hdue
    obtain hoff | hclear := h
    · rw [hie] at hoff
      cases hoff
    · rw [hclear j h9 h15] at hset
      cases hset

/-- The handler is entered with interrupts enabled and a bit pending. -/
theorem State.testInterrupts_of_due {s : State} (hie : s.ie = true) {k : Nat} (h9 : 9 ≤ k) (h15 : k ≤ 15)
    (hk : s.f.getLsbD k = true) : s.testInterrupts = s.enterHandler := by
  rw [State.testInterrupts, s.entryDue_iff.mpr ⟨hie, k, h9, h15, hk⟩, if_pos rfl]

/-- A step of a CPU that is not halted, in its own turn. -/
theorem step_eq_cpuStep {s : State} (hh : s.halted = false) (hturn : ∀ e rest, s.agenda ≠ .event e :: rest) :
    (s.run = .running → step s = cpuStep (s.putAgenda s.agenda.tail)) ∧
    (s.run = .singleStep → step s = stopAfter (cpuStep (s.putAgenda s.agenda.tail))) := by
  rw [step_cpu s hturn]
  exact ⟨cpuTurn_of_running (s := s.putAgenda s.agenda.tail) hh,
    cpuTurn_of_singleStep (s := s.putAgenda s.agenda.tail) hh⟩

/-- Settles O8: with no handler due the instruction at `pc` is fetched and executed. -/
theorem stepRunsDecodedInstruction : Obligations.StepRunsDecodedInstruction := by
  intro s i hh _ hturn hdue hram hdecode
  have hquiet : (s.putAgenda s.agenda.tail).testInterrupts = s.putAgenda s.agenda.tail :=
    State.testInterrupts_of_not_due hdue
  have hstep : cpuStep (s.putAgenda s.agenda.tail) = exec i ((s.putAgenda s.agenda.tail).putReg .pc (s.pc + 2)) := by
    rw [cpuStep_of_wordInRam (by rwa [hquiet]), hquiet, ← (decode_pair_eq_ok_iff _ _ i).mp hdecode]
    rfl
  rw [← hstep]
  exact step_eq_cpuStep hh hturn

/-! ## Entry into the handler (R246 to R248) -/

@[simp] theorem State.enterHandler_f (s : State) : s.enterHandler.f = withBit s.f 8 false := s.enterHandler_reg .f
@[simp] theorem State.enterHandler_pc (s : State) : s.enterHandler.pc = s.reg .ia := s.enterHandler_reg .pc
@[simp] theorem State.enterHandler_ia (s : State) : s.enterHandler.reg .ia = s.pc := s.enterHandler_reg .ia
@[simp] theorem State.enterHandler_ie (s : State) : s.enterHandler.ie = false := by
  rw [State.ie, State.enterHandler_f, withBit_same s.f 8 false (by decide)]

theorem State.enterHandler_f_getLsbD_of_ne (s : State) (j : Nat) (h : j ≠ 8) :
    s.enterHandler.f.getLsbD j = s.f.getLsbD j := by
  rw [State.enterHandler_f, withBit_of_ne s.f 8 j false (by decide) h]

theorem State.enterHandler_regsSameBut (s : State) : RegsSameBut [.pc, .ia, .f] s s.enterHandler := by
  intro q hq
  obtain ⟨hpc, hia, hf⟩ : q ≠ .pc ∧ q ≠ .ia ∧ q ≠ .f := by simpa using hq
  rw [State.enterHandler_reg, if_neg hpc, if_neg hia, if_neg hf]

/-- Settles O9: the state in which the handler's first instruction executes is that after the entry, `pc` advanced. -/
theorem stepEntersHandler : Obligations.StepEntersHandler := by
  intro s i k hh _ hturn hie h9 h15 hk hram hdecode
  have hentry : (s.putAgenda s.agenda.tail).testInterrupts = (s.putAgenda s.agenda.tail).enterHandler :=
    State.testInterrupts_of_due hie h9 h15 hk
  have hstep : cpuStep (s.putAgenda s.agenda.tail) =
      exec i ((s.putAgenda s.agenda.tail).enterHandler.putReg .pc (s.reg .ia + 2)) := by
    have hpc : (s.putAgenda s.agenda.tail).testInterrupts.pc = s.reg .ia := by
      rw [hentry, State.enterHandler_pc, State.putAgenda_reg]
    rw [cpuStep_of_wordInRam (by rwa [hpc]), hpc, hentry, ← (decode_pair_eq_ok_iff _ _ i).mp hdecode]
    rfl
  obtain ⟨hrunning, hsingle⟩ := step_eq_cpuStep hh hturn
  rw [hstep] at hrunning hsingle
  have hreg (q : Reg) (hq : q ≠ .pc) :
      ((s.putAgenda s.agenda.tail).enterHandler.putReg .pc (s.reg .ia + 2)).reg q = s.enterHandler.reg q := by
    rw [State.putReg_reg_of_ne _ .pc q _ hq, State.enterHandler_reg, State.enterHandler_reg]
    rfl
  have hf := hreg .f (by decide)
  refine ⟨_, hrunning, hsingle, State.putReg_reg_same _ .pc _, ?_, ?_, ?_, fun q hq => ?_, by simp, by simpa,
    by simp, ⟨by simp, by simp, by simp⟩, by simp, by simp, by simp, by simp⟩
  · rw [hreg .ia (by decide), State.enterHandler_ia]
  · rw [State.ie, State.f, hf]
    exact s.enterHandler_ie
  · rw [State.f, hf]
    exact s.enterHandler_f_getLsbD_of_ne
  · have hpc : q ≠ .pc := by
      rintro rfl
      exact hq (.head _)
    rw [hreg q hpc]
    exact s.enterHandler_regsSameBut q hq

end Sys2Proof.Machine

/-! Which registers an instruction can change (R22, R32, R96): each shared operation in terms of the registers it stores
into, then every instruction in terms of its outputs. -/

namespace Sys2Proof.Machine

/-! ## The registers an operation changes -/

/-- The user flags are as before and no pending bit 9 to 15 is withdrawn (R32, R36). -/
def UserAndPendingKept (s t : State) : Prop :=
  (∀ j, j < 4 → t.f.getLsbD j = s.f.getLsbD j) ∧ (∀ j, 9 ≤ j → s.f.getLsbD j = true → t.f.getLsbD j = true)

/-- A register outside the list is as before; of `f`, where it is not in the list, `ie`, the four flags and newly pending
bits at most can differ. -/
structure RegsKept (l : List Reg) (s t : State) : Prop where
  reg : ∀ q, q ∉ l → q ≠ .f → t.reg q = s.reg q
  flags : .f ∉ l → UserAndPendingKept s t

theorem UserAndPendingKept.of_eq {s t : State} (h : t.f = s.f) : UserAndPendingKept s t := by
  rw [UserAndPendingKept, h]
  exact ⟨fun _ _ => rfl, fun _ _ => id⟩

theorem UserAndPendingKept.trans {s t u : State} (h : UserAndPendingKept s t) (k : UserAndPendingKept t u) :
    UserAndPendingKept s u :=
  ⟨fun j hj => (k.1 j hj).trans (h.1 j hj), fun j hj hs => k.2 j hj (h.2 j hj hs)⟩

/-- Setting or clearing one of bits 4 to 8, or setting any, keeps them. -/
theorem UserAndPendingKept.of_withBit {s t : State} {i : Nat} {b : Bool} (hi : i < 16)
    (hb : 4 ≤ i ∧ (9 ≤ i → b = true)) (h : t.f = withBit s.f i b) : UserAndPendingKept s t := by
  rw [UserAndPendingKept, h]
  refine ⟨fun j hj => withBit_of_ne s.f i j b hi (by omega), fun j hj hs => ?_⟩
  rw [withBit_getLsbD s.f i j b hi]
  split
  · next heq => exact hb.2 (heq ▸ hj)
  · exact hs

theorem UserAndPendingKept.of_flagWord {s t : State} {q : ZCSO} (h : t.f = flagWord s.f q) : UserAndPendingKept s t := by
  rw [UserAndPendingKept, h]
  refine ⟨fun j hj => ?_, fun j hj hs => by rwa [flagWord_high _ _ j (by omega)]⟩
  rw [flagWord_getLsbD, if_neg (by omega), if_neg (by omega), if_neg (by omega), if_neg (by omega)]

theorem RegsKept.of_regs {s t : State} (h : t.regs = s.regs) (l : List Reg) : RegsKept l s t :=
  ⟨fun q _ _ => by rw [State.reg, h, State.reg], fun _ => .of_eq (by rw [State.f, State.reg, h]; rfl)⟩

theorem RegsKept.refl (l : List Reg) (s : State) : RegsKept l s s := .of_regs rfl l

theorem RegsKept.trans {l : List Reg} {s t u : State} (h : RegsKept l s t) (k : RegsKept l t u) : RegsKept l s u :=
  ⟨fun q hq hf => (k.reg q hq hf).trans (h.reg q hq hf), fun hf => (h.flags hf).trans (k.flags hf)⟩

theorem RegsKept.mono {l m : List Reg} {s t : State} (h : RegsKept l s t) (hlm : l ⊆ m) : RegsKept m s t :=
  ⟨fun q hq hf => h.reg q (fun hl => hq (hlm hl)) hf, fun hf => h.flags fun hl => hf (hlm hl)⟩

theorem State.writeReg_regsKept (s : State) {d : Reg} {l : List Reg} (h : d ∈ l) (v : Word) :
    RegsKept l s (s.writeReg d v) := by
  refine ⟨fun q hq _ => ?_, fun hf => .of_eq ?_⟩
  · rw [State.writeReg_reg, if_neg (ne_of_mem_of_not_mem h hq).symm]
  · rw [State.writeReg_f, if_neg (ne_of_mem_of_not_mem h hf).symm]

theorem State.putFlags_regsKept (s : State) (q : ZCSO) (l : List Reg) : RegsKept l s (s.putFlags q) :=
  ⟨fun r _ hf => by rw [State.putFlags_reg, if_neg hf], fun _ => .of_flagWord (s.putFlags_reg q .f)⟩

theorem State.setFlags_regsKept (s : State) (d : Reg) (q : ZCSO) (l : List Reg) : RegsKept l s (s.setFlags d q) := by
  unfold State.setFlags
  split
  · exact .refl l s
  · exact s.putFlags_regsKept q l

theorem State.setFlags2_regsKept (s : State) (d r : Reg) (q : ZCSO) (l : List Reg) :
    RegsKept l s (s.setFlags2 d r q) := by
  unfold State.setFlags2
  split
  · exact .refl l s
  · exact s.putFlags_regsKept q l

theorem State.raise_f (s : State) (e : Reason) : (s.raise e).f = withBit s.f 9 true := s.raise_reg e .f

theorem State.raise_regsKept (s : State) (e : Reason) (l : List Reg) : RegsKept l s (s.raise e) :=
  ⟨fun q _ hf => by rw [State.raise_reg, if_neg hf],
    fun _ => .of_withBit (i := 9) (by decide) (by decide) (s.raise_f e)⟩

theorem State.returnFromHandler_regsKept (s : State) {l : List Reg} (hpc : .pc ∈ l) (hia : .ia ∈ l) :
    RegsKept l s s.returnFromHandler := by
  refine ⟨fun q hq hf => ?_, fun _ => .of_withBit (i := 8) (by decide) (by decide) s.returnFromHandler_f⟩
  rw [State.returnFromHandler_reg, if_neg (ne_of_mem_of_not_mem hia hq).symm,
    if_neg (ne_of_mem_of_not_mem hpc hq).symm, if_neg hf]

section
variable (s : State) {d r : Reg} {l : List Reg}

theorem State.exchange_regsKept (hd : d ∈ l) (hr : r ∈ l) : RegsKept l s (s.exchange d r) :=
  (s.writeReg_regsKept hd _).trans (State.writeReg_regsKept _ hr _)

theorem State.load_regsKept (hd : d ∈ l) : RegsKept l s (s.load d r) :=
  (RegsKept.of_regs (s.readWord_regs _) l).trans (State.writeReg_regsKept _ hd _)

theorem State.addTwo_regsKept (hr : r ∈ l) : RegsKept l s (s.addTwo r) := s.writeReg_regsKept hr _

theorem State.loadIncrement_regsKept (hd : d ∈ l) (hr : r ∈ l) : RegsKept l s (s.loadIncrement d r) := by
  refine (RegsKept.of_regs (s.readWord_regs (s.reg r)) l).trans ?_
  unfold State.loadIncrement
  dsimp only
  split
  · exact (RegsKept.of_regs (State.drawWord_regs _) l).trans (State.writeReg_regsKept _ hd _)
  · exact (State.writeReg_regsKept _ hd _).trans (State.writeReg_regsKept _ hr _)

theorem State.loadIncrementExchange_regsKept (hd : d ∈ l) (hr : r ∈ l) : RegsKept l s (s.loadIncrementExchange d r) := by
  refine (RegsKept.of_regs (s.readWord_regs (s.reg r)) l).trans ?_
  unfold State.loadIncrementExchange
  dsimp only
  split
  · exact (RegsKept.of_regs (State.drawWord_regs _) l).trans (State.writeReg_regsKept _ hd _)
  · exact (State.writeReg_regsKept _ hd _).trans (State.writeReg_regsKept _ hr _)

theorem State.putResult_regsKept (hd : d ∈ l) (v : Word) (q : ZCSO) : RegsKept l s (s.putResult d v q) :=
  (s.writeReg_regsKept hd v).trans (State.setFlags_regsKept _ d q l)

theorem State.putProduct_regsKept (hd : d ∈ l) (hr : r ∈ l) (p : BitVec 32) (q : ZCSO) :
    RegsKept l s (s.putProduct d r p q) := by
  unfold State.putProduct
  dsimp only
  split
  · exact ((RegsKept.of_regs s.drawWord_regs l).trans (State.writeReg_regsKept _ hd _)).trans
      (State.setFlags2_regsKept _ d r q l)
  · exact ((s.writeReg_regsKept hd _).trans (State.writeReg_regsKept _ hr _)).trans
      (State.setFlags2_regsKept _ d r q l)

theorem State.shiftCarry_putResult_regsKept (hd : d ∈ l) (n : Nat) (b : Bool) (v : Word) (q : ZCSO) :
    RegsKept l s ((s.shiftCarry n b).2.putResult d v q) := by
  obtain ⟨m, hm⟩ := s.shiftCarry_state n b
  rw [hm]
  exact (RegsKept.of_regs (s.bump_regs m) l).trans (State.putResult_regsKept _ hd v q)

theorem State.shraOverflow_putResult_regsKept (hd : d ∈ l) (n : Nat) (b : Bool) (u v : Word) (q : ZCSO) :
    RegsKept l s (((s.shiftCarry n b).2.shraOverflow n u).2.putResult d v q) := by
  obtain ⟨m, hm⟩ := s.shiftCarry_state n b
  obtain ⟨k, hk⟩ := (s.bump m).shraOverflow_state n u
  rw [hm, hk]
  exact (RegsKept.of_regs (show ((s.bump m).bump k).regs = s.regs from rfl) l).trans (State.putResult_regsKept _ hd v q)

theorem State.decrementStore_regsKept (hd : d ∈ l) : RegsKept l s (s.decrementStore d r) := by
  refine (s.writeReg_regsKept hd (s.reg d - 2)).trans (.of_regs ?_ l)
  unfold State.decrementStore
  dsimp only
  split <;> simp

theorem State.moveIf_regsKept (b : Bool) (hd : d ∈ l) : RegsKept l s (s.moveIf b d r) := by
  cases b
  · exact .refl l s
  · exact s.writeReg_regsKept hd _

theorem State.loadIf_regsKept (b : Bool) (hd : d ∈ l) : RegsKept l s (s.loadIf b d r) := by
  cases b
  · exact .refl l s
  · exact s.load_regsKept hd

theorem State.loadOrSkip_regsKept (b : Bool) (hd : d ∈ l) (hr : r ∈ l) : RegsKept l s (s.loadOrSkip b d r) := by
  cases b
  · exact s.addTwo_regsKept hr
  · exact s.load_regsKept hd

theorem State.exchangeIf_regsKept (b : Bool) (hd : d ∈ l) (hr : r ∈ l) : RegsKept l s (s.exchangeIf b d r) := by
  cases b
  · exact .refl l s
  · exact s.exchange_regsKept hd hr

theorem State.loadExchangeOrSkip_regsKept (b : Bool) (hd : d ∈ l) (hr : r ∈ l) :
    RegsKept l s (s.loadExchangeOrSkip b d r) := by
  cases b
  · exact s.addTwo_regsKept hr
  · exact s.loadIncrementExchange_regsKept hd hr

theorem State.ifImplemented_regsKept {o : OptionalInstr} {e t : State} (h : s.ifImplemented o e = .next t)
    (he : RegsKept l s e) : RegsKept l s t := by
  obtain ⟨_, heq⟩ | ⟨_, heq⟩ := s.ifImplemented_cases o e <;> rw [heq] at h <;> cases h
  · exact he
  · exact s.raise_regsKept _ l

theorem RegsKept.of_exec {i : Instr} {s t u : State} (h : exec i s = .next t) (he : exec i s = .next u)
    (hu : RegsKept l s u) : RegsKept l s t := by
  rw [he] at h
  cases h
  exact hu

end

/-! ## The outputs of an instruction (R96) -/

/-- The registers an instruction can change besides `f`: its outputs, and for `reti` (opcode 0x1c) `pc` and `ia`. -/
def changedBy (i : Instr) : List Reg := outputsOf i ++ if i.opcode = 0x1c then [.pc, .ia] else []

/-- The register that `DSTR` names, whatever the other field names. -/
@[simp] theorem regOfField_dstr (d : Reg) (y : BitVec 4) :
    regOfField ((fieldOfReg d ++ y : Byte).extractLsb' 4 4) = d :=
  (congrArg regOfField BitVec.extractLsb'_append_eq_left).trans (regOfField_fieldOfReg d)

/-- The register that `SRCR` names. -/
@[simp] theorem regOfField_srcr (x : BitVec 4) (r : Reg) :
    regOfField ((x ++ fieldOfReg r : Byte).extractLsb' 0 4) = r :=
  (congrArg regOfField BitVec.extractLsb'_append_eq_right).trans (regOfField_fieldOfReg r)

theorem mem_changedBy_iff (i : Instr) (q : Reg) :
    q ∈ changedBy i ↔ q ∈ outputsOf i ∨ i.opcode = 0x1c ∧ (q = .pc ∨ q = .ia) := by
  rw [changedBy, List.mem_append]
  by_cases h : i.opcode = 0x1c
  · simp [h]
  · rw [if_neg h]
    simp only [h, List.not_mem_nil, false_and]

/-- What an instruction changes besides `f` is among `changedBy`. -/
theorem exec_regsKept (i : Instr) (s t : State) (h : exec i s = .next t) : RegsKept (changedBy i) s t := by
  cases i
  case csrw c r => exact .of_exec h rfl (.of_regs (s.csrWrite_regs c _) _)
  case sto d r => exact .of_exec h rfl (.of_regs (s.writeWord_regs _ _ _) _)
  case stob d r => exact .of_exec h rfl (.of_regs (s.writeByte_regs _ _ _) _)
  case cmps d r | cmpu d r => exact .of_exec h rfl (s.putFlags_regsKept _ _)
  case ill d r => exact .of_exec h rfl (s.raise_regsKept _ _)
  case unassigned22 op d r | unassigned24 op d r | unassigned28 op d r | unassigned30 op d r | unassigned40 op d r |
      unassignedD0 op d r | unassignedE0 op d r =>
    exact .of_exec h rfl (s.raise_regsKept _ _)
  case reti d r =>
    refine .of_exec h rfl (s.returnFromHandler_regsKept ?_ ?_) <;> simp [mem_changedBy_iff, Instr.opcode]
  case mv d r | csrr d r =>
    refine .of_exec h rfl (s.writeReg_regsKept ?_ _)
    simp [mem_changedBy_iff, outputsOf, dstOf, Instr.opcode, Instr.fields]
  case exch d r =>
    refine .of_exec h rfl (s.exchange_regsKept ?_ ?_) <;>
      simp [mem_changedBy_iff, outputsOf, dstOf, srcOf, Instr.opcode, Instr.fields]
  case ld d r =>
    refine .of_exec h rfl (s.load_regsKept ?_)
    simp [mem_changedBy_iff, outputsOf, dstOf, Instr.opcode, Instr.fields]
  case ldb d r =>
    refine .of_exec h rfl ((RegsKept.of_regs (s.readByte_regs _) _).trans (State.writeReg_regsKept _ ?_ _))
    simp [mem_changedBy_iff, outputsOf, dstOf, Instr.opcode, Instr.fields]
  case ldis d r =>
    refine .of_exec h rfl (s.loadIncrement_regsKept ?_ ?_) <;>
      simp [mem_changedBy_iff, outputsOf, dstOf, srcOf, Instr.opcode, Instr.fields]
  case add d r | sub d r | and d r | or d r | xor d r | not d r | rev d r | inc1 d r | inc2 d r | dec1 d r |
      dec2 d r =>
    refine .of_exec h rfl (s.putResult_regsKept ?_ _ _)
    simp [mem_changedBy_iff, outputsOf, dstOf, Instr.opcode, Instr.fields]
  case shl d r | shr d r =>
    refine .of_exec h rfl (s.shiftCarry_putResult_regsKept ?_ _ _ _ _)
    simp [mem_changedBy_iff, outputsOf, dstOf, Instr.opcode, Instr.fields]
  case shra d r =>
    refine .of_exec h rfl (s.shraOverflow_putResult_regsKept ?_ _ _ _ _ _)
    simp [mem_changedBy_iff, outputsOf, dstOf, Instr.opcode, Instr.fields]
  case mvnf0 d r | mvnf1 d r | mvnf2 d r | mvnf3 d r | mvnz d r | mvnc d r | mvns d r | mvno d r | mvf0 d r |
      mvf1 d r | mvf2 d r | mvf3 d r | mvz d r | mvc d r | mvs d r | mvo d r =>
    refine .of_exec h rfl (s.moveIf_regsKept _ ?_)
    simp [mem_changedBy_iff, outputsOf, dstOf, Instr.opcode, Instr.fields]
  case ldnf0 d r | ldnf1 d r | ldnf2 d r | ldnf3 d r | ldnz d r | ldnc d r | ldns d r | ldno d r | ldf0 d r |
      ldf1 d r | ldf2 d r | ldf3 d r | ldz d r | ldc d r | lds d r | ldo d r =>
    refine .of_exec h rfl (s.loadIf_regsKept _ ?_)
    simp [mem_changedBy_iff, outputsOf, dstOf, Instr.opcode, Instr.fields]
  case ldnf0is d r | ldnf1is d r | ldnf2is d r | ldnf3is d r | ldnzis d r | ldncis d r | ldnsis d r | ldnois d r |
      ldf0is d r | ldf1is d r | ldf2is d r | ldf3is d r | ldzis d r | ldcis d r | ldsis d r | ldois d r =>
    refine .of_exec h rfl (s.loadOrSkip_regsKept _ ?_ ?_) <;>
      simp [mem_changedBy_iff, outputsOf, dstOf, srcOf, Instr.opcode, Instr.fields]
  case neg d r =>
    refine s.ifImplemented_regsKept h (s.putResult_regsKept ?_ _ _)
    simp [mem_changedBy_iff, outputsOf, dstOf, Instr.opcode, Instr.fields]
  case ddsto d r =>
    refine s.ifImplemented_regsKept h (s.decrementStore_regsKept ?_)
    simp [mem_changedBy_iff, outputsOf, dstOf, Instr.opcode, Instr.fields]
  case ldisx d r =>
    refine s.ifImplemented_regsKept h (s.loadIncrementExchange_regsKept ?_ ?_) <;>
      simp [mem_changedBy_iff, outputsOf, dstOf, srcOf, Instr.opcode, Instr.fields]
  case mulss d r | mulsu d r | mulus d r | muluu d r =>
    refine s.ifImplemented_regsKept h (s.putProduct_regsKept ?_ ?_ _ _) <;>
      simp [mem_changedBy_iff, outputsOf, dstOf, srcOf, Instr.opcode, Instr.fields]
  case exchnf0 d r | exchnf1 d r | exchnf2 d r | exchnf3 d r | exchnz d r | exchnc d r | exchns d r | exchno d r |
      exchf0 d r | exchf1 d r | exchf2 d r | exchf3 d r | exchz d r | exchc d r | exchs d r | excho d r =>
    refine s.ifImplemented_regsKept h (s.exchangeIf_regsKept _ ?_ ?_) <;>
      simp [mem_changedBy_iff, outputsOf, dstOf, srcOf, Instr.opcode, Instr.fields]
  case ldxnf0is d r | ldxnf1is d r | ldxnf2is d r | ldxnf3is d r | ldxnzis d r | ldxncis d r | ldxnsis d r |
      ldxnois d r | ldxf0is d r | ldxf1is d r | ldxf2is d r | ldxf3is d r | ldxzis d r | ldxcis d r | ldxsis d r |
      ldxois d r =>
    refine s.ifImplemented_regsKept h (s.loadExchangeOrSkip_regsKept _ ?_ ?_) <;>
      simp [mem_changedBy_iff, outputsOf, dstOf, srcOf, Instr.opcode, Instr.fields]

/-! ## The claims -/

/-- Settles O19: a register outside the outputs, `f` and what `reti` changes is outside `changedBy`. -/
theorem registersKeptUnlessNamed : Obligations.RegistersKeptUnlessNamed := by
  intro i s t q h hout hf hreti
  refine (exec_regsKept i s t h).reg q (fun hq => ?_) hf
  obtain hq | ⟨hop, hq⟩ := (mem_changedBy_iff i q).mp hq
  · exact hout hq
  · obtain ⟨hpc, hia⟩ := hreti hop
    exact hq.elim hpc hia

/-- What an event does to `f`, when it neither sets it nor is a reset: a device's pending bit at most. -/
theorem EventEffect.userAndPendingKept {e : Event} {s t : State} (h : EventEffect e s t)
    (hset : ∀ v, e ≠ .cdi (.setReg .f v)) (hreset : e ≠ .reset) : UserAndPendingKept s t := by
  cases h with
  | quiet hr _ _ _ => exact (RegsKept.of_regs hr []).flags (by simp)
  | interrupt b u hb hr _ _ _ ht =>
    subst ht
    exact ((RegsKept.of_regs hr []).flags (by simp)).trans
      (.of_withBit (i := b) (by omega) ⟨by omega, fun _ => rfl⟩ (u.deviceInterrupt_f b))
  | setReg r v he ht =>
    have hr : Reg.f ≠ r := fun hr => hset v (by rw [he, hr])
    exact .of_eq (by rw [ht, State.f, State.cdiSetReg_reg, if_neg hr]; rfl)
  | setCsr c v _ ht => exact .of_eq (by rw [ht, State.f, State.csrWrite_reg]; rfl)
  | reset he _ => exact absurd he hreset

/-- The fetch and the interrupt test change no bit of `f` but `ie`. -/
theorem State.fetched_f_getLsbD_of_ne (s : State) (j : Nat) (h : j ≠ 8) :
    s.testInterrupts.fetch.2.f.getLsbD j = s.f.getLsbD j := by
  have hfetch (u : State) : u.fetch.2.f = u.f := by
    rw [State.fetch, State.putReg_f, if_neg (by decide), State.f, State.readByte_reg, State.readByte_reg]
    rfl
  rw [hfetch]
  obtain ⟨_, heq⟩ | ⟨_, heq⟩ := s.testInterrupts_cases <;> rw [heq]
  exact s.enterHandler_f_getLsbD_of_ne j h

/-- Settles O18: with `f` no output, an instruction leaves in `f` what every operation leaves; so do events. -/
theorem flagsKeptUnlessNamed : Obligations.FlagsKeptUnlessNamed := by
  refine ⟨fun i s t h hf => ?_, fun e s t h => (applyEvent_effect e s t h).userAndPendingKept,
    State.fetched_f_getLsbD_of_ne⟩
  refine (exec_regsKept i s t h).flags fun hmem => ?_
  obtain hmem | ⟨_, hpc | hia⟩ := (mem_changedBy_iff i .f).mp hmem
  · exact hf hmem
  · cases hpc
  · cases hia

end Sys2Proof.Machine

/-! The loads (41_load_store.md, 42_conditional.md): what a read through the address map answers in RAM and at the devices,
what each load leaves in its registers, and the statements of the loads and of the three conditional families that load. -/

namespace Sys2Proof.Machine

/-! ## Reads -/

/-- The word read at an address whose two bytes lie in RAM is the little-endian one (R60). -/
theorem State.readWord_toNat (s : State) (a : Word) (h : WordInRam a) : (s.readWord a).1.toNat = s.ramWord a := by
  rw [s.readWord_ram a h.1 h.2, wordOf_toNat]
  rfl

theorem State.readByte_storesOnly (s : State) (a : Word) (d : Reg) (v : Word) :
    StoresOnly [d] s ((s.readByte a).2.writeReg d v) := by
  obtain h | h := s.readByte_state a <;> rw [h]
  · exact s.writeReg_storesOnly d v
  · exact ((s.bump 1).writeReg_storesOnly d v).of_bump

/-! ## Loads into one register -/

theorem State.load_reg_dst (s : State) (d r : Reg) : (s.load d r).reg d = (s.readWord (s.reg r)).1 :=
  State.writeReg_reg_same _ d _

theorem State.load_toNat (s : State) (d r : Reg) (h : WordInRam (s.reg r)) :
    ((s.load d r).reg d).toNat = s.ramWord (s.reg r) := by
  rw [State.load_reg_dst, s.readWord_toNat _ h]

theorem State.load_storesOnly (s : State) (d r : Reg) : StoresOnly [d] s (s.load d r) := by
  obtain ⟨n, h⟩ := s.readWord_state (s.reg r)
  rw [State.load, h]
  exact ((s.bump n).writeReg_storesOnly d _).of_bump

theorem exec_ld (d r : Reg) (s : State) : exec (.ld d r) s = .next (s.load d r) := rfl

/-- Settles O23: one word read, one store. -/
theorem ldLoadsWord : Obligations.LdLoadsWord := by
  intro d r s
  exact ⟨rfl, _, exec_ld d r s, s.load_toNat d r, s.load_storesOnly d r⟩

theorem exec_ldb (d r : Reg) (s : State) :
    exec (.ldb d r) s = .next ((s.readByte (s.reg r)).2.writeReg d
      (wordOf (highByte (s.reg d)) (s.readByte (s.reg r)).1)) := rfl

/-- The high byte of a word of two bytes. -/
theorem wordOf_toNat_div (h l : Byte) : (wordOf h l).toNat / 256 = h.toNat := by
  rw [wordOf_toNat]
  omega

/-- The low byte of a word of two bytes. -/
theorem wordOf_toNat_mod (h l : Byte) : (wordOf h l).toNat % 256 = l.toNat := by
  rw [wordOf_toNat]
  omega

/-- Settles O24: the word stored is made of the old high byte and the byte read. -/
theorem ldbLoadsLowByte : Obligations.LdbLoadsLowByte := by
  intro d r s
  refine ⟨rfl, _, exec_ldb d r s, ?_, fun hram => ?_, s.readByte_storesOnly _ d _⟩
  · rw [State.writeReg_reg_same, wordOf_toNat_div, highByte_toNat]
  · rw [State.writeReg_reg_same, wordOf_toNat_mod, s.readByte_ram _ hram]
    rfl

/-! ## Loads from devices (R259, R263, R265) -/

theorem State.readByte_rxd (s : State) (h : s.kbd.received = true) : s.readByte 0xffe1 = (s.kbd.rxd, s) := by
  have htarget : target 0xffe1 = .rxd := by decide
  rw [State.readByte, htarget]
  exact if_pos h

theorem State.readByte_ready (s : State) : s.readByte 0xffe2 = (s.kbd.readyByte, s) := by
  have htarget : target 0xffe2 = .ready := by decide
  rw [State.readByte, htarget]

theorem State.readByte_clkLow (s : State) : s.readByte 0xfff0 = (lowByte s.clk, s) := by
  have htarget : target 0xfff0 = .clkLow := by decide
  rw [State.readByte, htarget]

theorem State.readByte_clkHigh (s : State) : s.readByte (0xfff0 + 1) = (highByte s.clk, s) := by
  have htarget : target (0xfff0 + 1) = .clkHigh := by decide
  rw [State.readByte, htarget]

theorem State.readWord_clkAddr (s : State) : s.readWord 0xfff0 = (s.clk, s) := by
  simp only [State.readWord, State.readByte_clkLow, State.readByte_clkHigh, wordOf_high_low]

/-- Bit 0 of `READY` is `R`, bit 1 is `T`. -/
theorem append_ofBool_toNat : ∀ ready received : Bool,
    ((0#6 ++ BitVec.ofBool ready) ++ BitVec.ofBool received).toNat = received.toNat + 2 * ready.toNat := by
  decide

theorem Keyboard.readyByte_toNat (k : Keyboard) : k.readyByte.toNat = k.received.toNat + 2 * k.ready.toNat :=
  append_ofBool_toNat k.ready k.received

/-- Settles O29: `RXD` while a byte waits, `READY` and the clock counter are read without a free value. -/
theorem loadsFromDevices : Obligations.LoadsFromDevices := by
  intro d r s
  refine ⟨fun ha hreceived => ⟨_, exec_ldb d r s, ?_, s.readByte_storesOnly _ d _⟩,
    fun ha => ⟨_, exec_ldb d r s, ?_, s.readByte_storesOnly _ d _⟩,
    fun ha => ⟨_, exec_ld d r s, ?_, s.load_storesOnly d r⟩⟩
  · rw [State.writeReg_reg_same, wordOf_toNat_mod, ha, s.readByte_rxd hreceived]
  · rw [State.writeReg_reg_same, wordOf_toNat_mod, ha, s.readByte_ready, Keyboard.readyByte_toNat]
  · rw [State.load_reg_dst, ha, s.readWord_clkAddr]

/-! ## Loads that store into both registers (R133, R134, R138) -/

/-- The frame of one store is that of stores into a longer list. -/
theorem StoresOnly.mono {l m : List Reg} {s t : State} (h : StoresOnly l s t) (hlm : l ⊆ m) : StoresOnly m s t :=
  ⟨fun q hq => h.1 q fun hl => hq (hlm hl), h.2.1, h.2.2⟩

theorem State.addTwo_toNat (s : State) (r : Reg) : ((s.addTwo r).reg r).toNat = ((s.reg r).toNat + 2) % 2 ^ 16 := by
  rw [State.addTwo, State.writeReg_reg_same, BitVec.toNat_add]
  rfl

/-- With different registers: two stores after the read. -/
theorem State.loadIncrement_of_ne (s : State) {d r : Reg} (h : d ≠ r) :
    s.loadIncrement d r = ((s.readWord (s.reg r)).2.writeReg d (s.readWord (s.reg r)).1).writeReg r (s.reg r + 2) := by
  rw [State.loadIncrement]
  exact if_neg h

theorem State.loadIncrementExchange_of_ne (s : State) {d r : Reg} (h : d ≠ r) :
    s.loadIncrementExchange d r =
      ((s.readWord (s.reg r)).2.writeReg d (s.reg r + 2)).writeReg r (s.readWord (s.reg r)).1 := by
  rw [State.loadIncrementExchange]
  exact if_neg h

/-- The read, then two stores into different registers. -/
theorem State.readWord_two_storesOnly (s : State) (a : Word) {d r : Reg} (h : d ≠ r) (v w : Word) :
    StoresOnly [d, r] s (((s.readWord a).2.writeReg d v).writeReg r w) := by
  obtain ⟨n, hn⟩ := s.readWord_state a
  rw [hn]
  exact ((s.bump n).writeReg_writeReg_storesOnly d r v w h).of_bump

/-- The read, then a free word in the one register (log 8). -/
theorem State.readWord_drawWord_storesOnly (s : State) (a : Word) (d r : Reg) :
    StoresOnly [d, r] s ((s.readWord a).2.drawWord.2.writeReg d (s.readWord a).2.drawWord.1) := by
  obtain ⟨n, hn⟩ := s.readWord_state a
  rw [hn]
  refine StoresOnly.mono (l := [d]) ?_ (by simp)
  exact (((s.bump n).bump 1).writeReg_storesOnly d _).of_bump.of_bump

theorem State.loadIncrement_storesOnly (s : State) (d r : Reg) : StoresOnly [d, r] s (s.loadIncrement d r) := by
  by_cases h : d = r
  · rw [State.loadIncrement]
    exact if_pos h ▸ s.readWord_drawWord_storesOnly _ d r
  · rw [s.loadIncrement_of_ne h]
    exact s.readWord_two_storesOnly _ h _ _

theorem State.loadIncrementExchange_storesOnly (s : State) (d r : Reg) :
    StoresOnly [d, r] s (s.loadIncrementExchange d r) := by
  by_cases h : d = r
  · rw [State.loadIncrementExchange]
    exact if_pos h ▸ s.readWord_drawWord_storesOnly _ d r
  · rw [s.loadIncrementExchange_of_ne h]
    exact s.readWord_two_storesOnly _ h _ _

theorem State.loadIncrement_toNat_dst (s : State) {d r : Reg} (h : d ≠ r) (hram : WordInRam (s.reg r)) :
    ((s.loadIncrement d r).reg d).toNat = s.ramWord (s.reg r) := by
  rw [s.loadIncrement_of_ne h, State.writeReg_reg, if_neg h, State.writeReg_reg_same, s.readWord_toNat _ hram]

theorem State.loadIncrement_toNat_src (s : State) {d r : Reg} (h : d ≠ r) :
    ((s.loadIncrement d r).reg r).toNat = ((s.reg r).toNat + 2) % 2 ^ 16 := by
  rw [s.loadIncrement_of_ne h, State.writeReg_reg_same, BitVec.toNat_add]
  rfl

theorem State.loadIncrementExchange_toNat_src (s : State) {d r : Reg} (h : d ≠ r) (hram : WordInRam (s.reg r)) :
    ((s.loadIncrementExchange d r).reg r).toNat = s.ramWord (s.reg r) := by
  rw [s.loadIncrementExchange_of_ne h, State.writeReg_reg_same, s.readWord_toNat _ hram]

theorem State.loadIncrementExchange_toNat_dst (s : State) {d r : Reg} (h : d ≠ r) :
    ((s.loadIncrementExchange d r).reg d).toNat = ((s.reg r).toNat + 2) % 2 ^ 16 := by
  rw [s.loadIncrementExchange_of_ne h, State.writeReg_reg, if_neg h, State.writeReg_reg_same, BitVec.toNat_add]
  rfl

/-- Settles O25: the loaded word and the incremented address, each in its register when there are two. -/
theorem ldisLoadsAndIncrements : Obligations.LdisLoadsAndIncrements := by
  intro d r s
  exact ⟨rfl, _, rfl, s.loadIncrement_storesOnly d r,
    fun h => ⟨s.loadIncrement_toNat_dst h, s.loadIncrement_toNat_src h⟩⟩

/-- Settles O30: the build decides between IINSTR and the load; the loaded word ends in the source. -/
theorem ldisxLoadsAndExchanges : Obligations.LdisxLoadsAndExchanges := by
  intro d r s
  refine ⟨rfl, ?_⟩
  obtain ⟨himpl, heq⟩ | ⟨hnot, heq⟩ := s.ifImplemented_cases .ldisx (s.loadIncrementExchange d r)
  · exact ⟨_, heq, fun hnot => absurd himpl hnot, fun _ => ⟨s.loadIncrementExchange_storesOnly d r,
      fun h => ⟨s.loadIncrementExchange_toNat_src h, s.loadIncrementExchange_toNat_dst h⟩⟩⟩
  · exact ⟨_, heq, fun _ => s.raise_raises .iinstr, fun himpl => absurd himpl hnot⟩

/-! ## The conditional loads (R147 to R149) -/

theorem ldFamily_means : FamilyMeans ldFamily 0x90 fun s b d r => .next (s.loadIf b d r) := by
  rw [familyMeans_iff_forall]
  and_intros <;> exact fun _ _ _ => ⟨rfl, rfl⟩

theorem ldisFamily_means : FamilyMeans ldisFamily 0xa0 fun s b d r => .next (s.loadOrSkip b d r) := by
  rw [familyMeans_iff_forall]
  and_intros <;> exact fun _ _ _ => ⟨rfl, rfl⟩

theorem ldxFamily_means :
    FamilyMeans ldxFamily 0xb0 fun s b d r => s.ifImplemented .ldxNFis (s.loadExchangeOrSkip b d r) := by
  rw [familyMeans_iff_forall]
  and_intros <;> exact fun _ _ _ => ⟨rfl, rfl⟩

@[simp] theorem State.loadIf_true (s : State) (d r : Reg) : s.loadIf true d r = s.load d r := rfl
@[simp] theorem State.loadIf_false (s : State) (d r : Reg) : s.loadIf false d r = s := rfl
@[simp] theorem State.loadOrSkip_true (s : State) (d r : Reg) : s.loadOrSkip true d r = s.load d r := rfl
@[simp] theorem State.loadOrSkip_false (s : State) (d r : Reg) : s.loadOrSkip false d r = s.addTwo r := rfl
@[simp] theorem State.loadExchangeOrSkip_true (s : State) (d r : Reg) :
    s.loadExchangeOrSkip true d r = s.loadIncrementExchange d r := rfl
@[simp] theorem State.loadExchangeOrSkip_false (s : State) (d r : Reg) :
    s.loadExchangeOrSkip false d r = s.addTwo r := rfl

/-- Settles O33: a true test loads, a false one does nothing. -/
theorem ldNFLoadsIfTrue : Obligations.LdNFLoadsIfTrue := by
  intro c hc d r s
  obtain ⟨hop, hexec⟩ := ldFamily_means c hc d r s
  refine ⟨hop, _, hexec, fun htrue => ?_, fun hfalse => ?_⟩
  · rw [Conditional.test_of_holds htrue, State.loadIf_true]
    exact ⟨s.load_toNat d r, s.load_storesOnly d r⟩
  · rw [Conditional.test_of_not_holds hfalse, State.loadIf_false]

/-- Settles O34: a true test loads, a false one adds 2 to the source. -/
theorem ldNFisLoadsOrSkips : Obligations.LdNFisLoadsOrSkips := by
  intro c hc d r s
  obtain ⟨hop, hexec⟩ := ldisFamily_means c hc d r s
  refine ⟨hop, _, hexec, fun htrue => ?_, fun hfalse => ?_⟩
  · rw [Conditional.test_of_holds htrue, State.loadOrSkip_true]
    exact ⟨s.load_toNat d r, s.load_storesOnly d r⟩
  · rw [Conditional.test_of_not_holds hfalse, State.loadOrSkip_false]
    exact ⟨s.addTwo_toNat r, s.writeReg_storesOnly r _⟩

/-- Settles O36: the build decides first; then a true test is `ldisx`, a false one adds 2 to the source. -/
theorem ldxNFisLoadsExchangesOrSkips : Obligations.LdxNFisLoadsExchangesOrSkips := by
  intro c hc d r s
  obtain ⟨hop, hexec⟩ := ldxFamily_means c hc d r s
  refine ⟨hop, ?_⟩
  obtain ⟨himpl, heq⟩ | ⟨hnot, heq⟩ :=
    s.ifImplemented_cases .ldxNFis (s.loadExchangeOrSkip (s.test c.flag c.value) d r)
  · refine ⟨_, hexec.trans heq, fun hnot => absurd himpl hnot, fun _ => ⟨fun htrue => ?_, fun hfalse => ?_⟩⟩
    · rw [Conditional.test_of_holds htrue, State.loadExchangeOrSkip_true]
      exact ⟨s.loadIncrementExchange_storesOnly d r,
        fun h => ⟨s.loadIncrementExchange_toNat_src h, s.loadIncrementExchange_toNat_dst h⟩⟩
    · rw [Conditional.test_of_not_holds hfalse, State.loadExchangeOrSkip_false]
      exact ⟨s.addTwo_toNat r, s.writeReg_storesOnly r _⟩
  · exact ⟨_, hexec.trans heq, fun _ => s.raise_raises .iinstr, fun himpl => absurd himpl hnot⟩

end Sys2Proof.Machine

/-! The stores (41_load_store.md, 20_memory.md, 60_exceptions.md section 8): RAM and the keyboard controller after a byte
and after a word that the CPU stores, and the statements of the three stores and of the fetch after a store. -/

namespace Sys2Proof.Machine

/-! ## RAM after a store of the CPU (R68, R76) -/

theorem State.writeByte_ram_same (s : State) (a : Word) (b : Byte) (hw : s.mem.wf = true) (ha : a ≤ Config.memMax)
    (hrom : Writable s.params a) : (s.writeByte .cpu a b).ram a = b := by
  rw [State.ram, s.writeByte_mem .cpu a b hw, if_pos ⟨rfl, ha, (writable_iff _ _).mp hrom⟩]

theorem State.writeByte_ram_of_ne (s : State) (a x : Word) (b : Byte) (hw : s.mem.wf = true)
    (h : x ≠ a ∨ ¬ Writable s.params x) : (s.writeByte .cpu a b).ram x = s.ram x := by
  rw [State.ram, s.writeByte_mem .cpu a b hw, if_neg, State.ram]
  rintro ⟨hx, _, hrom⟩
  obtain rfl : x = a := BitVec.eq_of_toNat_eq hx
  rw [← writable_iff] at hrom
  obtain hne | hprohibited := h
  · exact hne rfl
  · exact hprohibited hrom

theorem State.writeWord_eq (s : State) (m : Master) (a v : Word) :
    s.writeWord m a v = (s.writeByte m a (lowByte v)).writeByte m (a + 1) (highByte v) := rfl

theorem add_one_ne_self (a : Word) : a + 1 ≠ a := by bv_omega

section
variable (s : State) (a v : Word) (hw : s.mem.wf = true)
include hw

theorem State.writeWord_ram_low (ha : a ≤ Config.memMax) (hrom : Writable s.params a) :
    (s.writeWord .cpu a v).ram a = lowByte v := by
  rw [State.writeWord_eq, State.writeByte_ram_of_ne _ _ _ _ (s.writeByte_wf _ _ _ hw) (.inl (add_one_ne_self a).symm),
    s.writeByte_ram_same a _ hw ha hrom]

theorem State.writeWord_ram_high (ha : a + 1 ≤ Config.memMax) (hrom : Writable s.params (a + 1)) :
    (s.writeWord .cpu a v).ram (a + 1) = highByte v := by
  rw [State.writeWord_eq]
  exact State.writeByte_ram_same _ _ _ (s.writeByte_wf _ _ _ hw) ha (by rwa [State.writeByte_params])

theorem State.writeWord_ram_of_ne (x : Word) (h : (x ≠ a ∧ x ≠ a + 1) ∨ ¬ Writable s.params x) :
    (s.writeWord .cpu a v).ram x = s.ram x := by
  rw [State.writeWord_eq, State.writeByte_ram_of_ne _ _ _ _ (s.writeByte_wf _ _ _ hw),
    s.writeByte_ram_of_ne a x _ hw (h.imp_left And.left)]
  rw [State.writeByte_params]
  exact h.imp_left And.right

/-- A word stored by the CPU, in the words of claims. -/
theorem State.writeWord_wordStoredAt : WordStoredAt s (s.writeWord .cpu a v) a v := by
  refine ⟨fun ha hrom => ?_, fun ha hrom => ?_, s.writeWord_ram_of_ne a v hw⟩
  · rw [s.writeWord_ram_low a v hw ha hrom, lowByte_toNat]
  · rw [s.writeWord_ram_high a v hw ha hrom, highByte_toNat]

end

/-! ## The keyboard controller after a store (R262, R263) -/

/-- Only a byte for `TXD` or `RXD` reaches the keyboard. -/
theorem State.writeByte_kbd_of_ne (s : State) (m : Master) (a : Word) (b : Byte) (htxd : a ≠ Config.kbdAddr)
    (hrxd : a ≠ Config.kbdAddr + 1) : (s.writeByte m a b).kbd = s.kbd := by
  obtain h | ⟨_, _, h⟩ | ⟨ha, _⟩ | ⟨ha, _⟩ := s.writeByte_cases m a b
  · rw [h]
  · rw [h, State.putMem_kbd]
  · exact absurd ha htxd
  · exact absurd ha hrxd

theorem State.writeWord_kbd_of_ne (s : State) (m : Master) (a v : Word) (htxd : a ≠ Config.kbdAddr)
    (hrxd : a ≠ Config.kbdAddr + 1) (hbelow : a + 1 ≠ Config.kbdAddr) : (s.writeWord m a v).kbd = s.kbd := by
  have habove : a + 1 ≠ Config.kbdAddr + 1 := fun h => htxd (add_right_cancel h)
  rw [State.writeWord_eq, State.writeByte_kbd_of_ne _ _ _ _ hbelow habove, s.writeByte_kbd_of_ne _ _ _ htxd hrxd]

/-- What a word stored by the CPU does to the keyboard controller, `TXD` being stored to only while `T` is 1. -/
theorem State.writeWord_kbd (s : State) (a v : Word) (hlow : Writable s.params a) (hhigh : Writable s.params (a + 1))
    (hready : a = 0xffe0 → s.kbd.ready = true) (hready' : a + 1 = 0xffe0 → s.kbd.ready = true) :
    (s.writeWord .cpu a v).kbd = keyboardAfterWord s.kbd a v := by
  have hfirst : (s.writeByte .cpu a (lowByte v)).kbd = keyboardAfter s.kbd a (lowByte v) :=
    s.writeByte_kbd a _ hlow hready
  rw [State.writeWord_eq, State.writeByte_kbd _ _ _ (by rwa [State.writeByte_params]), hfirst, keyboardAfterWord]
  intro ha
  have htxd : a ≠ 0xffe0 := by bv_omega
  have hrxd : a ≠ 0xffe1 := by bv_omega
  rw [hfirst, keyboardAfter, if_neg htxd, if_neg hrxd]
  exact hready' ha

theorem State.writeWord_mem_device (s : State) (m : Master) (a v : Word) (hlow : Config.memMax < a)
    (hhigh : Config.memMax < a + 1) : (s.writeWord m a v).mem = s.mem := by
  rw [State.writeWord_eq, State.writeByte_mem_device _ _ _ _ hhigh, s.writeByte_mem_device _ _ _ hlow]

/-! ## `sto` and `stob` (R135, R136) -/

theorem exec_sto (d r : Reg) (s : State) :
    exec (.sto d r) s = .next (s.writeWord .cpu (s.reg d) (s.reg r)) := rfl
theorem exec_stob (d r : Reg) (s : State) :
    exec (.stob d r) s = .next (s.writeByte .cpu (s.reg d) (lowByte (s.reg r))) := rfl

/-- Settles O26: a word store at the address in the destination. -/
theorem stoStoresWord : Obligations.StoStoresWord := by
  intro d r s hw
  exact ⟨rfl, _, exec_sto d r s, s.writeWord_wordStoredAt _ _ hw, s.writeWord_storesToMemoryOnly _ _ _,
    s.writeWord_kbd_of_ne _ _ _⟩

/-- Settles O27: a byte store at the address in the destination. -/
theorem stobStoresByte : Obligations.StobStoresByte := by
  intro d r s hw
  refine ⟨rfl, _, exec_stob d r s, fun ha hrom => ?_, fun x => s.writeByte_ram_of_ne _ x _ hw,
    s.writeByte_storesToMemoryOnly _ _ _, s.writeByte_kbd_of_ne _ _ _⟩
  rw [s.writeByte_ram_same _ _ hw ha hrom, lowByte_toNat]

/-! ## `ddsto` (R137, R138) -/

/-- The decremented address is in the destination before the word is stored; the word is the source's, or a free one where
the two fields are alike (log 9). -/
theorem State.decrementStore_cases (s : State) (d r : Reg) :
    ∃ u v, s.decrementStore d r = u.writeWord .cpu (s.reg d - 2) v ∧ u.reg d = s.reg d - 2 ∧ StoresOnly [d] s u ∧
      u.mem = s.mem ∧ u.kbd = s.kbd ∧ (d ≠ r → v = s.reg r) := by
  have hstore := s.writeReg_storesOnly d (s.reg d - 2)
  by_cases h : d = r
  · refine ⟨(s.writeReg d (s.reg d - 2)).drawWord.2, _, if_pos h, ?_, hstore, ?_, ?_, fun hne => absurd h hne⟩
    · rw [State.drawWord_reg, State.writeReg_reg_same]
    · rw [State.drawWord_mem, State.writeReg_mem]
    · rw [State.drawWord_kbd, State.writeReg_kbd]
  · exact ⟨_, _, if_neg h, s.writeReg_reg_same d _, hstore, s.writeReg_mem d _, s.writeReg_kbd d _, fun _ => rfl⟩

theorem exec_ddsto (d r : Reg) (s : State) :
    exec (.ddsto d r) s = s.ifImplemented .ddsto (s.decrementStore d r) := rfl

/-- Only RAM and the build's ROM matter to a claim about a stored word. -/
theorem WordStoredAt.of_same_before {s u t : State} {a v : Word} (h : WordStoredAt u t a v) (hm : u.mem = s.mem)
    (hp : u.params = s.params) : WordStoredAt s t a v := by
  unfold WordStoredAt State.ram at *
  rwa [hm, hp] at h

theorem StoresOnly.params {l : List Reg} {s t : State} (h : StoresOnly l s t) : t.params = s.params := by
  obtain ⟨_, _, _, _, _, _, _, hparams, _⟩ := h
  exact hparams

/-- The frame of a register store, then a word store. -/
theorem StoresOnly.writeWord {l : List Reg} {s u : State} (h : StoresOnly l s u) (m : Master) (a v : Word) :
    RegsSameBut l s (u.writeWord m a v) ∧ CsrsAfterStore s (u.writeWord m a v) ∧
      (u.writeWord m a v).halted = s.halted ∧ (u.writeWord m a v).clk = s.clk ∧
      (u.writeWord m a v).display = s.display ∧ SameOutside s (u.writeWord m a v) := by
  obtain ⟨hregs, hcsrs, hhalted, _, ⟨_, hclk, hdisplay⟩, hagenda, hreplies, hparams, hrun⟩ := h
  refine ⟨fun q hq => ?_, hcsrs.congr (fun j _ => ?_) (u.writeWord_csrs m a v), ?_, ?_, ?_, ?_, ?_, ?_, ?_⟩
  · rw [State.writeWord_reg, hregs q hq]
  · rw [State.f, State.writeWord_reg, State.f]
  · rw [State.writeWord_halted, hhalted]
  · rw [State.writeWord_clk, hclk]
  · rw [State.writeWord_display, hdisplay]
  · rw [State.writeWord_agenda, hagenda]
  · rw [State.writeWord_replies, hreplies]
  · rw [State.writeWord_params, hparams]
  · rw [State.writeWord_run, hrun]

/-- Settles O31: the build decides first; then the destination's store is followed by a word store at the new address. -/
theorem ddstoDecrementsAndStores : Obligations.DdstoDecrementsAndStores := by
  intro d r s hw
  refine ⟨rfl, ?_⟩
  obtain ⟨himpl, heq⟩ | ⟨hnot, heq⟩ := s.ifImplemented_cases .ddsto (s.decrementStore d r)
  · obtain ⟨u, v, hstore, hd, honly, hm, hk, hv⟩ := s.decrementStore_cases d r
    have hp : u.params = s.params := honly.params
    rw [← exec_ddsto, hstore] at heq
    obtain ⟨hregs, hcsrs, hhalted, hclk, hdisplay, houtside⟩ := honly.writeWord .cpu (s.reg d - 2) v
    have hstored : WordStoredAt s (u.writeWord .cpu (s.reg d - 2) v) (s.reg d - 2) v :=
      (u.writeWord_wordStoredAt _ v (by rwa [hm])).of_same_before hm hp
    refine ⟨_, heq, fun hnot => absurd himpl hnot, fun _ => ?_⟩
    rw [State.writeWord_reg, hd]
    refine ⟨toNat_sub_two _, hregs, fun hne => hv hne ▸ hstored, fun x hlow hhigh => hstored.2.2 x (.inl ⟨hlow, hhigh⟩),
      hcsrs, hhalted, hclk, hdisplay, houtside, fun htxd hrxd hbelow => ?_⟩
    rw [u.writeWord_kbd_of_ne _ _ _ htxd hrxd hbelow, hk]
  · exact ⟨_, heq, fun _ => s.raise_raises .iinstr, fun himpl => absurd himpl hnot⟩

/-- Settles O28: each byte of a store reaches the keyboard as `keyboardAfter` says, and outside RAM leaves RAM. -/
theorem storesToKeyboard : Obligations.StoresToKeyboard := by
  intro d r s a hlow hready
  refine ⟨fun ha => ⟨_, exec_stob d r s, ?_, ?_, s.writeByte_storesToMemoryOnly _ _ _⟩,
    fun hhigh hready' => ⟨fun ha => ⟨_, exec_sto d r s, ?_, ?_, s.writeWord_storesToMemoryOnly _ _ _⟩,
      fun himpl hne ha => ?_⟩⟩
  · rw [ha]
    exact s.writeByte_kbd a _ hlow hready
  · rw [ha]
    exact s.writeByte_mem_device _ a _
  · rw [ha]
    exact s.writeWord_kbd a _ hlow hhigh hready hready'
  · rw [ha]
    exact s.writeWord_mem_device _ a _
  · have haddr : s.reg d - 2 = a := by rw [ha, BitVec.add_sub_cancel]
    obtain ⟨u, v, hstore, hd, honly, hm, hk, hv⟩ := s.decrementStore_cases d r
    have hp : u.params = s.params := honly.params
    rw [haddr] at hstore hd
    refine ⟨u.writeWord .cpu a v, ?_, ?_, ?_, ?_, honly.writeWord .cpu a v⟩
    · rw [exec_ddsto, State.ifImplemented, if_pos himpl, hstore]
    · rw [State.writeWord_reg, hd]
    · rw [← hv hne, ← hk]
      rw [← hp] at hlow hhigh
      rw [← hk] at hready hready'
      exact u.writeWord_kbd a v hlow hhigh hready hready'
    · rw [← hm]
      exact u.writeWord_mem_device .cpu a v

/-! ## Coherence of the fetch (R83) -/

theorem writable_of_no_rom {p : Params} (h : p.romRange = none) (a : Word) : Writable p a := by
  intro lo hi hrom
  rw [h] at hrom
  cases hrom

/-- Settles O54: the two bytes the fetch reads are those just stored. -/
theorem storeIsSeenByNextFetch : Obligations.StoreIsSeenByNextFetch := by
  intro d r s hw hd hram hrom
  have hpc : (s.writeWord .cpu s.pc (s.reg r)).pc = s.pc := State.writeWord_reg s _ _ _ .pc
  refine ⟨_, exec_sto d r s, ?_, ?_⟩ <;> rw [hd, State.fetch_ram _ (by rwa [hpc]), hpc]
  · rw [s.writeWord_ram_low _ _ hw hram.1 (writable_of_no_rom hrom _),
      s.writeWord_ram_high _ _ hw hram.2 (writable_of_no_rom hrom _)]
    rfl
  · exact State.putReg_reg_same _ .pc _

end Sys2Proof.Machine

/-! The comparisons, the arithmetic shift, `neg` (43_computational.md) and the multiplies (44_multiply.md). -/

namespace Sys2Proof.Machine

/-! ## Frames -/

theorem Untouched.sameElsewhere {s t : State} (h : Untouched s t) : SameElsewhere s t :=
  sameElsewhere_of h.halted h.mem h.kbd h.clk h.display h.agenda h.replies h.params h.run

theorem flagWord_other (f : Word) (q : ZCSO) (j : Nat) (h : j < 4 ∨ 8 ≤ j) : (flagWord f q).getLsbD j = f.getLsbD j := by
  rw [flagWord_getLsbD, if_neg (by omega), if_neg (by omega), if_neg (by omega), if_neg (by omega)]

/-- What bits 4 to 7 of `f` say, with each truth value in other words. -/
theorem FlagsSay.congr {t : State} {z c sg o z' c' sg' o' : Prop} (h : FlagsSay t z c sg o) (hz : z ↔ z') (hc : c ↔ c')
    (hs : sg ↔ sg') (ho : o ↔ o') : FlagsSay t z' c' sg' o' := by
  obtain ⟨h4, h5, h6, h7⟩ := h
  exact ⟨h4.trans hz, h5.trans hc, h6.trans hs, h7.trans ho⟩

/-! ## Comparisons (R168, R169) -/

theorem exec_cmps (d r : Reg) (s : State) :
    exec (.cmps d r) s = .next (s.putFlags (cmpsFlags (s.reg d) (s.reg r))) := rfl
theorem exec_cmpu (d r : Reg) (s : State) :
    exec (.cmpu d r) s = .next (s.putFlags (cmpuFlags (s.reg d) (s.reg r))) := rfl

/-- Writing the flags changes bits 4 to 7 of `f` and nothing else. -/
theorem State.putFlags_frame (s : State) (q : ZCSO) :
    OtherFlagBitsSame s (s.putFlags q) ∧ RegsSameBut [.f] s (s.putFlags q) ∧ (s.putFlags q).csrs = s.csrs ∧
      SameElsewhere s (s.putFlags q) := by
  have hf : (s.putFlags q).f = flagWord s.f q := s.putFlags_reg q .f
  refine ⟨fun j hj => ?_, fun x hx => ?_, s.putFlags_csrs q, (s.putFlags_untouched q).sameElsewhere⟩
  · rw [hf, flagWord_other _ _ j hj]
  · rw [State.putFlags_reg, if_neg (by simpa using hx)]

/-- Settles O39: the flags say the three relations as they stand, `o` never. -/
theorem compareResult : Obligations.CompareResult := by
  intro d r s
  exact ⟨rfl, rfl,
    ⟨_, exec_cmps d r s, (s.putFlags_says _).congr beq_iff_eq decide_eq_true_iff decide_eq_true_iff
      Bool.false_eq_true.to_iff, s.putFlags_frame _⟩,
    ⟨_, exec_cmpu d r s, (s.putFlags_says _).congr beq_iff_eq decide_eq_true_iff decide_eq_true_iff
      Bool.false_eq_true.to_iff, s.putFlags_frame _⟩⟩

/-! ## The arithmetic shift (R177) -/

/-- Shifting right with the sign divides by a power of 2, rounding down. -/
theorem toInt_sshiftRight_shiftCount (v u : Word) :
    (v.sshiftRight (shiftCount u)).toInt = v.toInt / 2 ^ (u.toNat % 16) := by
  rw [BitVec.toInt_sshiftRight, Int.shiftRight_eq_div_pow, shiftCount_eq_mod, Nat.cast_pow]
  rfl

theorem State.shraOverflow_fst_of_count_zero (s : State) (u v : Word) (h : u.toNat % 16 = 0) :
    (s.shraOverflow (shiftCount u) v).1 = false := by
  rw [State.shraOverflow, shiftCount_eq_mod, if_pos h]

/-- By 1 (C10). -/
theorem State.shraOverflow_fst_of_count_one (s : State) (u v : Word) (h : u.toNat % 16 = 1) :
    (s.shraOverflow (shiftCount u) v).1 = true ↔ v = 0xffff := by
  rw [State.shraOverflow, shiftCount_eq_mod, if_neg (by omega), if_pos h]
  exact beq_iff_eq

theorem State.shraOverflow_putResult_computes (s : State) (n : Nat) (b : Bool) (d : Reg) (v r : Word) :
    Computes s
      (((s.shiftCarry n b).2.shraOverflow n v).2.putResult d r
        { z := zeroFlag r, c := (s.shiftCarry n b).1, s := signFlag r, o := ((s.shiftCarry n b).2.shraOverflow n v).1 })
      d r (r = 0) ((s.shiftCarry n b).1 = true) (r.getLsbD 15 = true)
      (((s.shiftCarry n b).2.shraOverflow n v).1 = true) := by
  obtain ⟨m, hcarry⟩ := s.shiftCarry_state n b
  obtain ⟨k, hoverflow⟩ := (s.bump m).shraOverflow_state n v
  rw [hcarry, hoverflow]
  exact (State.putResult_computes_of_carry_overflow _ d r _ rfl rfl Iff.rfl Iff.rfl).of_bump.of_bump

/-- Settles O43: the quotient rounded down; carry and overflow are open but for the counts the rule names. -/
theorem shraResult : Obligations.ShraResult := by
  intro d r s
  exact ⟨rfl, _, (s.reg d).sshiftRight (shiftCount (s.reg r)),
    (s.shiftCarry (shiftCount (s.reg r)) ((s.reg d).getLsbD 0)).1, _, rfl, toInt_sshiftRight_shiftCount _ _,
    s.shiftCarry_fst_of_count_one _ _, State.shraOverflow_fst_of_count_zero _ _ _,
    State.shraOverflow_fst_of_count_one _ _ _, s.shraOverflow_putResult_computes _ _ d _ _⟩

/-! ## `neg` (R182) -/

theorem toNat_not_add_one (a : Word) : (~~~ a + 1).toNat = (2 ^ 16 - a.toNat) % 2 ^ 16 := by
  have hneg : ~~~ a + 1 = -a := (BitVec.neg_eq_not_add a).symm
  rw [hneg, BitVec.toNat_neg]

theorem exec_neg (d r : Reg) (s : State) : exec (.neg d r) s =
    s.ifImplemented .neg (s.putResult d (~~~ s.reg r + 1) (negFlags (~~~ s.reg r + 1))) := rfl

/-- Settles O45: the build decides between IINSTR and a computation whose `c` and `o` look at the result. -/
theorem negResult : Obligations.NegResult := by
  intro d r s
  refine ⟨rfl, ?_⟩
  rw [exec_neg]
  obtain ⟨himpl, heq⟩ | ⟨hnot, heq⟩ :=
    s.ifImplemented_cases .neg (s.putResult d (~~~ s.reg r + 1) (negFlags (~~~ s.reg r + 1)))
  · exact ⟨_, heq, fun hnot => absurd himpl hnot, fun _ => ⟨_, toNat_not_add_one _,
      s.putResult_computes_of_carry_overflow d _ _ rfl rfl beq_iff_eq beq_iff_eq⟩⟩
  · exact ⟨_, heq, fun _ => s.raise_raises .iinstr, fun himpl => absurd himpl hnot⟩

/-! ## Products (R190, R195, R196) -/

theorem productHigh_append_productLow (p : BitVec 32) : productHigh p ++ productLow p = p :=
  BitVec.extractLsb'_append_extractLsb'

theorem State.setFlags2_f_high (s : State) (d r : Reg) (q : ZCSO) (j : Nat) (h : 8 ≤ j) :
    (s.setFlags2 d r q).f.getLsbD j = s.f.getLsbD j := by
  rw [State.f, State.setFlags2_reg]
  split
  · exact flagWord_high _ _ j h
  · rfl

/-- Signalling the flags after the stores of an instruction with outputs `d` and `r`. -/
theorem StoresOnly.setFlags2 {s u : State} {d r : Reg} (h : StoresOnly [d, r] s u) (q : ZCSO) :
    RegsSameBut [d, r, .f] s (u.setFlags2 d r q) ∧ CsrsAfterStore s (u.setFlags2 d r q) ∧
      SameElsewhere s (u.setFlags2 d r q) := by
  obtain ⟨hregs, hcsrs, hhalted, hram, ⟨hkbd, hclk, hdisplay⟩, hagenda, hreplies, hparams, hrun⟩ := h
  have hflags := u.setFlags2_untouched d r q
  refine ⟨fun x hx => ?_, hcsrs.congr (fun j hj => u.setFlags2_f_high d r q j (by omega)) (u.setFlags2_csrs d r q), ?_⟩
  · obtain ⟨hd, hr, hf⟩ : x ≠ d ∧ x ≠ r ∧ x ≠ .f := by simpa using hx
    rw [State.setFlags2_reg, if_neg (fun hx => hf hx.1), hregs x (by simp [hd, hr])]
  · exact ⟨hflags.halted.trans hhalted, fun a => by rw [State.ram, hflags.mem]; exact hram a,
      ⟨hflags.kbd.trans hkbd, hflags.clk.trans hclk, hflags.display.trans hdisplay⟩, hflags.agenda.trans hagenda,
      hflags.replies.trans hreplies, hflags.params.trans hparams, hflags.run.trans hrun⟩

theorem State.putProduct_of_ne (s : State) {d r : Reg} (h : d ≠ r) (p : BitVec 32) (q : ZCSO) :
    s.putProduct d r p q = ((s.writeReg d (productLow p)).writeReg r (productHigh p)).setFlags2 d r q := if_neg h

/-- The frame of a multiply, also of one whose fields are alike (log 8). -/
theorem State.putProduct_frame (s : State) (d r : Reg) (p : BitVec 32) (q : ZCSO) :
    RegsSameBut [d, r, .f] s (s.putProduct d r p q) ∧ CsrsAfterStore s (s.putProduct d r p q) ∧
      SameElsewhere s (s.putProduct d r p q) := by
  by_cases h : d = r
  · have hstore : StoresOnly [d, r] s (s.drawWord.2.writeReg d s.drawWord.1) :=
      StoresOnly.mono ((s.bump 1).writeReg_storesOnly d _).of_bump (by simp)
    rw [State.putProduct]
    exact if_pos h ▸ hstore.setFlags2 q
  · rw [s.putProduct_of_ne h]
    exact (s.writeReg_writeReg_storesOnly d r _ _ h).setFlags2 q

section
variable (s : State) {d r : Reg} (h : d ≠ r) (p : BitVec 32) (q : ZCSO)
include h

/-- With different registers the low half is in the destination, also when that is `f` (D10). -/
theorem State.putProduct_reg_dst : (s.putProduct d r p q).reg d = productLow p := by
  rw [s.putProduct_of_ne h, State.setFlags2_reg, if_neg (fun hf => hf.2.1 hf.1), State.writeReg_reg, if_neg h,
    State.writeReg_reg_same]

/-- With different registers the high half is in the source. -/
theorem State.putProduct_reg_src : (s.putProduct d r p q).reg r = productHigh p := by
  rw [s.putProduct_of_ne h, State.setFlags2_reg, if_neg (fun hf => hf.2.2 hf.1), State.writeReg_reg_same]

/-- With `f` neither register the flags are those of the product. -/
theorem State.putProduct_f (hd : d ≠ .f) (hr : r ≠ .f) : (s.putProduct d r p q).f = flagWord s.f q := by
  rw [State.f, s.putProduct_of_ne h, State.setFlags2_reg, if_pos ⟨rfl, hd, hr⟩, State.writeReg_f, if_neg hr.symm,
    State.writeReg_f, if_neg hd.symm]

theorem State.putProduct_flags (hd : d ≠ .f) (hr : r ≠ .f) : OtherFlagBitsSame s (s.putProduct d r p q) ∧
    FlagsSay (s.putProduct d r p q) (q.z = true) (q.c = true) (q.s = true) (q.o = true) := by
  have hf := s.putProduct_f h p q hd hr
  refine ⟨fun j hj => by rw [hf, flagWord_other _ _ j hj], ?_, ?_, ?_, ?_⟩ <;>
    rw [hf, flagWord_getLsbD] <;> simp

end

/-! ## Signed products (R191 to R193) -/

/-- A product of a 16-bit factor and a signed one has a 32-bit pattern. -/
theorem toInt_ofInt_mul {a b : Int} (ha : |a| ≤ 65535) (hb : |b| ≤ 32768) : (BitVec.ofInt 32 (a * b)).toInt = a * b := by
  have hbound : |a * b| ≤ 65535 * 32768 := by
    rw [abs_mul]
    exact mul_le_mul ha hb (abs_nonneg b) (by norm_num)
  obtain ⟨hlo, hhi⟩ := abs_le.mp hbound
  exact BitVec.toInt_ofInt_eq_self (by norm_num) (by norm_num; omega) (by norm_num; omega)

theorem abs_toInt_le (v : Word) : |v.toInt| ≤ 32768 := by
  have hlo := BitVec.le_toInt v
  have hhi := BitVec.toInt_lt (x := v)
  rw [abs_le]
  omega

theorem abs_toNat_le (v : Word) : |(v.toNat : Int)| ≤ 65535 := by
  have := v.isLt
  rw [abs_le]
  omega

/-- What the flags of a signed product mean (R191). -/
theorem mulSignedFlags_c_iff (p : Int) (hi : Word) :
    (mulSignedFlags p hi).c = true ↔ ¬ (if 0 ≤ p then hi = 0 else hi = 0xffff) := by
  rw [mulSignedFlags]
  split <;> simp

/-- The claim of each of the three multiplies with a signed product `p` that has a 32-bit pattern. -/
theorem State.putSignedProduct_claim (s : State) (d r : Reg) (o : OptionalInstr) {p : Int}
    (hp : (BitVec.ofInt 32 p).toInt = p) :
    ∃ t, s.ifImplemented o (s.putSignedProduct d r p) = .next t ∧ (o ∉ s.params.implemented → Raises s t 2) ∧
      (o ∈ s.params.implemented →
        (d ≠ r → ∃ lo hi : Word, t.reg d = lo ∧ t.reg r = hi ∧ (hi ++ lo).toInt = p ∧
          (d ≠ .f → r ≠ .f → OtherFlagBitsSame s t ∧
            FlagsSay t (p = 0) (¬(if 0 ≤ p then hi = 0 else hi = 0xffff)) (hi.getLsbD 15 = true)
              (p < -32768 ∨ 32767 < p))) ∧
        RegsSameBut [d, r, .f] s t ∧ CsrsAfterStore s t ∧ SameElsewhere s t) := by
  obtain ⟨himpl, heq⟩ | ⟨hnot, heq⟩ := s.ifImplemented_cases o (s.putSignedProduct d r p)
  · refine ⟨_, heq, fun hnot => absurd himpl hnot, fun _ => ⟨fun hne => ?_, s.putProduct_frame d r _ _⟩⟩
    refine ⟨_, _, s.putProduct_reg_dst hne _ _, s.putProduct_reg_src hne _ _, ?_, fun hd hr => ?_⟩
    · rw [productHigh_append_productLow, hp]
    · obtain ⟨hother, hsay⟩ := s.putProduct_flags hne (BitVec.ofInt 32 p)
        (mulSignedFlags p (productHigh (BitVec.ofInt 32 p))) hd hr
      exact ⟨hother, hsay.congr decide_eq_true_iff (mulSignedFlags_c_iff p _) Iff.rfl decide_eq_true_iff⟩
  · exact ⟨_, heq, fun _ => s.raise_raises .iinstr, fun himpl => absurd himpl hnot⟩

/-- Settles O46: the three differ in how they read their operands. -/
theorem signedMultiplyResult : Obligations.SignedMultiplyResult := by
  intro d r s x hx
  simp only [List.mem_cons, List.not_mem_nil, or_false] at hx
  have hss := toInt_ofInt_mul ((abs_toInt_le (s.reg d)).trans (by norm_num)) (abs_toInt_le (s.reg r))
  have hus := toInt_ofInt_mul (abs_toNat_le (s.reg d)) (abs_toInt_le (s.reg r))
  have hsu := toInt_ofInt_mul (abs_toNat_le (s.reg r)) (abs_toInt_le (s.reg d))
  rw [mul_comm] at hsu
  obtain rfl | rfl | rfl := hx
  · exact ⟨rfl, s.putSignedProduct_claim d r .mulss hss⟩
  · exact ⟨rfl, s.putSignedProduct_claim d r .mulsu hsu⟩
  · exact ⟨rfl, s.putSignedProduct_claim d r .mulus hus⟩

/-! ## The unsigned product (R194) -/

theorem toNat_mul_lt (a b : Word) : a.toNat * b.toNat < 2 ^ 32 := by
  have h := Nat.mul_lt_mul'' a.isLt b.isLt
  rwa [← Nat.pow_add] at h

theorem exec_muluu (d r : Reg) (s : State) : exec (.muluu d r) s =
    s.ifImplemented .muluu (s.putProduct d r (BitVec.ofNat 32 ((s.reg d).toNat * (s.reg r).toNat))
      (muluuFlags ((s.reg d).toNat * (s.reg r).toNat)
        (productHigh (BitVec.ofNat 32 ((s.reg d).toNat * (s.reg r).toNat))))) := rfl

/-- Settles O47: the exact product has a 32-bit pattern; `s` is never set. -/
theorem unsignedMultiplyResult : Obligations.UnsignedMultiplyResult := by
  intro d r s
  refine ⟨rfl, ?_⟩
  have hp := toNat_mul_lt (s.reg d) (s.reg r)
  rw [exec_muluu]
  generalize (s.reg d).toNat * (s.reg r).toNat = p at hp ⊢
  obtain ⟨himpl, heq⟩ | ⟨hnot, heq⟩ := s.ifImplemented_cases .muluu
    (s.putProduct d r (BitVec.ofNat 32 p) (muluuFlags p (productHigh (BitVec.ofNat 32 p))))
  · refine ⟨_, heq, fun hnot => absurd himpl hnot, fun _ => ⟨fun hne => ?_, s.putProduct_frame d r _ _⟩⟩
    refine ⟨_, _, s.putProduct_reg_dst hne _ _, s.putProduct_reg_src hne _ _, ?_, fun hd hr => ?_⟩
    · rw [productHigh_append_productLow, BitVec.toNat_ofNat, Nat.mod_eq_of_lt hp]
    · obtain ⟨hother, hsay⟩ := s.putProduct_flags hne (BitVec.ofNat 32 p)
        (muluuFlags p (productHigh (BitVec.ofNat 32 p))) hd hr
      exact ⟨hother, hsay.congr decide_eq_true_iff bne_iff_ne Bool.false_eq_true.to_iff decide_eq_true_iff⟩
  · exact ⟨_, heq, fun _ => s.raise_raises .iinstr, fun himpl => absurd himpl hnot⟩

end Sys2Proof.Machine

/-! Exceptions, interrupts and the events between steps (45_special.md, 60_exceptions.md, 70_reset_and_hazards.md). -/

namespace Sys2Proof.Machine

/-! ## Instructions that raise (R200, R203) -/

theorem exec_ill (d r : Reg) (s : State) : exec (.ill d r) s = .next (s.raise .izero) := rfl

/-- Settles O48: the fields are ignored. -/
theorem illRaisesIzero : Obligations.IllRaisesIzero := by
  intro d r s
  exact ⟨rfl, _, exec_ill d r s, s.raise_raises .izero⟩

/-- An instruction with an opcode in no list is one of the seven unassigned rows (R102). -/
theorem exec_unassigned {i : Instr} (s : State)
    (h : (0x22 ≤ i.opcode.toNat ∧ i.opcode.toNat ≤ 0x7f) ∨ 0xd0 ≤ i.opcode.toNat) :
    exec i s = .next (s.raise .iinstr) := by
  cases i
  case unassigned22 | unassigned24 | unassigned28 | unassigned30 | unassigned40 | unassignedD0 | unassignedE0 => rfl
  all_goals
    rw [Instr.opcode] at h
    exact absurd h (by decide)

/-- Settles O49: the decoded instruction keeps its opcode, which is in no list. -/
theorem unassignedOpcodesRaiseIinstr : Obligations.UnassignedOpcodesRaiseIinstr := by
  intro op ds s hop
  refine ⟨_, exec_unassigned s ?_, s.raise_raises .iinstr⟩
  rw [decodeInstr_opcode]
  exact hop.imp_right And.left

/-- Every optional instruction asks the build first (R5). -/
theorem IsOptional.exec {o : OptionalInstr} {i : Instr} (h : IsOptional o i) (s : State) :
    ∃ e, Sys2Proof.Machine.exec i s = s.ifImplemented o e := by
  cases h with
  | ddsto | ldisx | neg | mulss | mulsu | mulus | muluu => exact ⟨_, rfl⟩
  | exchNF c d r hc => exact ⟨_, (exchFamily_means c hc d r s).2⟩
  | ldxNFis c d r hc => exact ⟨_, (ldxFamily_means c hc d r s).2⟩

/-- Settles O50: the build's answer is no, and the effect is dropped. -/
theorem unimplementedRaisesIinstr : Obligations.UnimplementedRaisesIinstr := by
  intro o i s h hnot
  obtain ⟨e, hexec⟩ := h.exec s
  exact ⟨_, hexec.trans (if_neg hnot), s.raise_raises .iinstr⟩

/-! ## Entry into the handler after an instruction (R247, R252) -/

/-- What the interrupt test does to a state in which the handler is due. -/
theorem State.testInterrupts_entry {s : State} (hie : s.ie = true) {k : Nat} (h9 : 9 ≤ k) (h15 : k ≤ 15)
    (hk : s.f.getLsbD k = true) :
    s.testInterrupts.pc = s.reg .ia ∧ s.testInterrupts.reg .ia = s.pc ∧ s.testInterrupts.ie = false ∧
      s.testInterrupts.f.getLsbD k = true ∧ s.testInterrupts.halted = s.halted := by
  rw [State.testInterrupts_of_due hie h9 h15 hk]
  refine ⟨s.enterHandler_pc, s.enterHandler_ia, s.enterHandler_ie, ?_, s.enterHandler_halted⟩
  rw [s.enterHandler_f_getLsbD_of_ne k (by omega), hk]

/-- Settles O52: `reti` sets `ie` and leaves the bit, so the handler is due, with the return address in `pc`. -/
theorem pendingBitReentersAfterReti : Obligations.PendingBitReentersAfterReti := by
  intro d r s k h9 h15 hk
  have hbit : s.returnFromHandler.f.getLsbD k = true := by
    rw [s.returnFromHandler_f_getLsbD_of_ne k (by omega), hk]
  obtain ⟨hpc, hia, hie, hpending, _⟩ := State.testInterrupts_entry s.returnFromHandler_ie h9 h15 hbit
  exact ⟨_, exec_reti d r s, hpc.trans s.returnFromHandler_ia, hia.trans s.returnFromHandler_pc, hie, hpending⟩

/-- Settles O53: the exception sets `exc` and leaves `ie`, so the handler is due. -/
theorem exceptionEntersHandlerNext : Obligations.ExceptionEntersHandlerNext := by
  intro i s h hie
  obtain ⟨e, hexec⟩ := h.exec
  have hie' : (s.raise e).ie = true := by
    rw [State.ie, State.raise_f, withBit_of_ne s.f 9 8 true (by decide) (by decide)]
    exact hie
  have hexc : (s.raise e).f.getLsbD 9 = true := by rw [State.raise_f, withBit_same s.f 9 true (by decide)]
  obtain ⟨hpc, hia, hentered, hpending, hhalted⟩ := State.testInterrupts_entry hie' (by decide) (by decide) hexc
  refine ⟨_, hexec, hpc.trans (s.raise_reg e .ia), hia.trans (s.raise_reg e .pc), hentered, hpending, ?_⟩
  rw [hhalted, State.raise_halted, hie, Bool.not_true, Bool.or_false]

/-! ## A device's interrupt (R238) -/

@[simp] theorem State.deviceInterrupt_clk (s : State) (b : Nat) : (s.deviceInterrupt b).clk = s.clk := rfl
@[simp] theorem State.deviceInterrupt_kbd (s : State) (b : Nat) : (s.deviceInterrupt b).kbd = s.kbd := rfl
@[simp] theorem State.deviceInterrupt_display (s : State) (b : Nat) : (s.deviceInterrupt b).display = s.display := rfl
@[simp] theorem State.deviceInterrupt_agenda (s : State) (b : Nat) : (s.deviceInterrupt b).agenda = s.agenda := rfl
@[simp] theorem State.deviceInterrupt_replies (s : State) (b : Nat) : (s.deviceInterrupt b).replies = s.replies := rfl
@[simp] theorem State.deviceInterrupt_params (s : State) (b : Nat) : (s.deviceInterrupt b).params = s.params := rfl
@[simp] theorem State.deviceInterrupt_run (s : State) (b : Nat) : (s.deviceInterrupt b).run = s.run := rfl

theorem State.deviceInterrupt_sameOutside (s : State) (b : Nat) : SameOutside s (s.deviceInterrupt b) :=
  ⟨rfl, rfl, rfl, rfl⟩

/-- Of the CPU's state an interrupt sets its bit of `f` and `H`, and changes nothing else. -/
theorem State.deviceInterrupt_cpu (s : State) (b : Nat) (hb : b < 16) :
    (s.deviceInterrupt b).f.getLsbD b = true ∧
      (∀ j, j ≠ b → (s.deviceInterrupt b).f.getLsbD j = s.f.getLsbD j) ∧ RegsSameBut [.f] s (s.deviceInterrupt b) ∧
      (s.deviceInterrupt b).csrs.csr0.getLsbD 8 = true ∧ SameCsrsButH s (s.deviceInterrupt b) ∧
      (s.deviceInterrupt b).halted = s.halted := by
  rw [State.deviceInterrupt_f]
  refine ⟨withBit_same s.f b true hb, fun j hj => withBit_of_ne s.f b j true hb hj, fun q hq => ?_,
    (s.deviceInterrupt_sameCsrsButH b).1, (s.deviceInterrupt_sameCsrsButH b).2, s.deviceInterrupt_halted b⟩
  rw [State.deviceInterrupt_reg, if_neg (by simpa using hq)]

theorem applyEvent_clockTick (s : State) :
    applyEvent .clockTick s = .next ((s.putClk (s.clk + 1)).deviceInterrupt 10) := rfl

/-- Settles O55: the counter, then the interrupt on bit 10. -/
theorem clockTickCountsAndInterrupts : Obligations.ClockTickCountsAndInterrupts := by
  intro s
  obtain ⟨hset, hother, hregs, hh, hcsrs, hhalted⟩ := (s.putClk (s.clk + 1)).deviceInterrupt_cpu 10 (by decide)
  refine ⟨_, applyEvent_clockTick s, ?_, hset, hother, hregs, hh, hcsrs, hhalted, ?_, ?_, ?_,
    (s.putClk (s.clk + 1)).deviceInterrupt_sameOutside 10⟩
  · rw [State.deviceInterrupt_clk, State.putClk_clk, BitVec.toNat_add]
    rfl
  · rw [State.deviceInterrupt_mem, State.putClk_mem]
  · rw [State.deviceInterrupt_kbd, State.putClk_kbd]
  · rw [State.deviceInterrupt_display, State.putClk_display]

theorem applyEvent_keyReceived (b : Byte) {s : State} (h : s.kbd.received = false) :
    applyEvent (.keyReceived b) s =
      .next ((s.putKbd { s.kbd with rxd := b, received := true }).deviceInterrupt 11) := by
  rw [applyEvent, State.keyReceived, h]
  rfl

theorem applyEvent_keySent {s : State} (h : s.kbd.ready = false) :
    applyEvent .keySent s = .next ((s.putKbd { s.kbd with ready := true }).deviceInterrupt 11) := by
  rw [applyEvent, State.keySent, h]
  rfl

/-- The keyboard's registers have changed to `k`, then comes the interrupt on bit 11 (R264). -/
theorem State.keyboardInterrupt (s : State) (k : Keyboard) :
    ((s.putKbd k).deviceInterrupt 11).kbd = k ∧ ((s.putKbd k).deviceInterrupt 11).f.getLsbD 11 = true ∧
      (∀ j, j ≠ 11 → ((s.putKbd k).deviceInterrupt 11).f.getLsbD j = s.f.getLsbD j) ∧
      RegsSameBut [.f] s ((s.putKbd k).deviceInterrupt 11) ∧
      ((s.putKbd k).deviceInterrupt 11).csrs.csr0.getLsbD 8 = true ∧
      SameCsrsButH s ((s.putKbd k).deviceInterrupt 11) ∧ ((s.putKbd k).deviceInterrupt 11).halted = s.halted ∧
      ((s.putKbd k).deviceInterrupt 11).mem = s.mem ∧ ((s.putKbd k).deviceInterrupt 11).clk = s.clk ∧
      ((s.putKbd k).deviceInterrupt 11).display = s.display ∧ SameOutside s ((s.putKbd k).deviceInterrupt 11) := by
  obtain ⟨hset, hother, hregs, hh, hcsrs, hhalted⟩ := (s.putKbd k).deviceInterrupt_cpu 11 (by decide)
  refine ⟨?_, hset, hother, hregs, hh, hcsrs, hhalted, ?_, ?_, ?_, (s.putKbd k).deviceInterrupt_sameOutside 11⟩
  · rw [State.deviceInterrupt_kbd, State.putKbd_kbd]
  · rw [State.deviceInterrupt_mem, State.putKbd_mem]
  · rw [State.deviceInterrupt_clk, State.putKbd_clk]
  · rw [State.deviceInterrupt_display, State.putKbd_display]

/-- Settles O56: both events change the keyboard's registers and then interrupt. -/
theorem keyboardEventsInterrupt : Obligations.KeyboardEventsInterrupt := by
  intro s
  exact ⟨fun b h => ⟨_, applyEvent_keyReceived b h, s.keyboardInterrupt _⟩,
    fun h => ⟨_, applyEvent_keySent h, s.keyboardInterrupt _⟩⟩

/-! ## The host and a reset (R249, R273, R280) -/

theorem applyEvent_setReg (r : Reg) (v : Word) (s : State) :
    applyEvent (.cdi (.setReg r v)) s = .next (s.cdiSetReg r v) := rfl

/-- Settles O57: the halt follows the value of `f`, the register takes the value. -/
theorem hostSetsRegister : Obligations.HostSetsRegister := by
  intro s r v
  refine ⟨_, applyEvent_setReg r v s, ?_, fun q hq => ?_, ?_⟩
  · rw [State.cdiSetReg_reg, if_pos rfl]
  · rw [State.cdiSetReg_reg, if_neg (by simpa using hq)]
  · obtain ⟨hr, hv, hset⟩ | ⟨hnot, hset⟩ := s.cdiSetReg_cases r v <;> rw [hset]
    · exact ⟨fun _ => rfl, fun hnot => absurd ⟨hr, hv⟩ hnot, rfl, fun _ => rfl, ⟨rfl, rfl, rfl⟩, rfl, rfl, rfl, rfl⟩
    · exact ⟨fun h => absurd h hnot, fun _ => rfl, rfl, fun _ => rfl, ⟨rfl, rfl, rfl⟩, rfl, rfl, rfl, rfl⟩

/-- Settles O58: what a reset states; the rest it leaves free (log 3). -/
theorem resetClearsRegisters : Obligations.ResetClearsRegisters := by
  intro s
  exact ⟨_, applyEvent_reset s, State.reg_of_regs_zero s.resetEvent_regs, rfl, rfl, rfl, rfl,
    s.resetEvent_csr0_reserved, rfl⟩

end Sys2Proof.Machine

/-! How a program gets into RAM: the debugger's `load` and the configured image (R274, R283). Both leave RAM as
`Memory.fill` does, whose reads are known. -/

namespace Sys2Proof.Machine

/-! ## The order of writes -/

/-- Writes at different addresses commute: canonical memories are their reads. -/
theorem Memory.write_comm {m : Memory} (hw : m.wf = true) {a b : Nat} (ha : a ≤ Config.memMax.toNat)
    (hb : b ≤ Config.memMax.toNat) (hne : a ≠ b) (v w : Byte) : (m.write a v).write b w = (m.write b w).write a v := by
  have hwa := m.wf_write a v hw ha
  have hwb := m.wf_write b w hw hb
  refine Memory.ext_of_read _ _ 0 (Memory.wf_write _ b w hwa hb) (Memory.wf_write _ a v hwb ha) fun x => ?_
  rw [Memory.read_write _ _ _ _ hwa, Memory.read_write _ _ _ _ hw, Memory.read_write _ _ _ _ hwb,
    Memory.read_write _ _ _ _ hw]
  by_cases hxa : x = a
  · rw [if_neg (by omega), if_pos hxa, if_pos hxa]
  · rw [if_neg hxa, if_neg hxa]

/-- A write below what is filled can be made first. -/
theorem Memory.fill_write_below (bs : List Byte) : ∀ {m : Memory} {c a : Nat} (v : Byte), m.wf = true →
    c ≤ Config.memMax.toNat → c < a → (m.write c v).fill a bs = (m.fill a bs).write c v := by
  induction bs with
  | nil => exact fun _ _ _ _ => rfl
  | cons b bs ih =>
    intro m c a v hw hc hlt
    rw [Memory.fill, Memory.fill, ih v hw hc (by omega)]
    split
    · next ha => exact Memory.write_comm (Memory.wf_fill bs m (a + 1) hw) hc ha (by omega) v b
    · rfl

/-- Filling upwards, the lowest byte first. -/
theorem Memory.fill_cons {m : Memory} (hw : m.wf = true) {a : Nat} (ha : a ≤ Config.memMax.toNat) (b : Byte)
    (bs : List Byte) : m.fill a (b :: bs) = (m.write a b).fill (a + 1) bs := by
  rw [Memory.fill, if_pos ha, Memory.fill_write_below bs b hw ha (by omega)]

/-! ## The CDI's writes (R274, R76) -/

theorem writesFrom_cons (a : Word) (b : Byte) (bs : List Byte) :
    writesFrom a (b :: bs) = .writeMem a b :: writesFrom (a + 1) bs := by
  rw [writesFrom, writesFrom, List.zipIdx_cons, List.zipIdx_succ, List.map_cons, List.map_map]
  congr 1
  · rw [BitVec.add_zero]
  · refine List.map_congr_left fun p _ => ?_
    rw [Function.comp_apply, BitVec.ofNat_add, BitVec.add_comm (BitVec.ofNat 16 p.2), ← BitVec.add_assoc]
    rfl

/-- ROM_RANGE does not bind the CDI (D6). -/
theorem State.writeByte_cdi_ram (s : State) {a : Word} (b : Byte) (ha : a ≤ Config.memMax) :
    s.writeByte .cdi a b = s.putMem (s.mem.write a.toNat b) := by
  rw [State.writeByte, writeProhibited, if_neg (by decide), State.storeByte, (target_ram_iff a).mpr ha]

/-- The turns that write bytes to consecutive addresses. -/
def writeTurns (a : Word) (bs : List Byte) : List Turn := (writesFrom a bs).map fun c => .event (.cdi c)

/-- As many steps as there are writes on the agenda fill RAM and leave the rest of the agenda. -/
theorem steps_writeTurns (bs : List Byte) : ∀ (s : State) (a : Word) (rest : List Turn), s.mem.wf = true →
    a.toNat + bs.length ≤ 30000 → s.agenda = writeTurns a bs ++ rest →
    steps bs.length s = .next ((s.putAgenda rest).putMem (s.mem.fill a.toNat bs)) := by
  induction bs with
  | nil =>
    intro s a rest _ _ hagenda
    obtain rfl : s.agenda = rest := hagenda
    rfl
  | cons b bs ih =>
    intro s a rest hw hfits hagenda
    rw [List.length_cons] at hfits
    have hram : a ≤ Config.memMax := BitVec.le_def.mpr (show a.toNat ≤ 29999 by omega)
    have hnext : (a + 1).toNat = a.toNat + 1 := by bv_omega
    rw [writeTurns, writesFrom_cons] at hagenda
    have hstep : step s = .next ((s.putAgenda (writeTurns (a + 1) bs ++ rest)).putMem (s.mem.write a.toNat b)) := by
      rw [step_event s _ _ hagenda]
      exact congrArg Host.Outcome.next (State.writeByte_cdi_ram _ b hram)
    rw [List.length_cons, steps, hstep, andThen, ih _ (a + 1) rest (s.mem.wf_write _ b hw hram) (by omega) rfl, hnext,
      Memory.fill_cons hw hram]
    rfl

@[simp] theorem State.bump_zero (s : State) : s.bump 0 = s := rfl

/-- A `load` without an address. -/
theorem debug_load {s : State} {file : Text} {a : Word} {bs : List Byte} (hw : s.mem.wf = true)
    (hfile : splitBin file = some (a, bs)) (hfits : a.toNat + bs.length ≤ 30000) :
    s.debug (.load file none) = .next (s.putMem (s.mem.fill a.toNat bs)) := by
  have hturns : (DebugCommand.load file none).turns s.draws = some (writeTurns a bs) := by
    rw [DebugCommand.turns, hfile]
    rfl
  have hlength : (writeTurns a bs).length = bs.length := by
    rw [writeTurns, List.length_map, writesFrom, List.length_map, List.length_zipIdx]
  rw [State.debug, hturns]
  dsimp only
  rw [if_neg (by simp), State.bump_zero, State.takeTurns, hlength,
    steps_writeTurns bs (s.putAgenda (writeTurns a bs ++ s.agenda)) a s.agenda hw hfits rfl]
  rfl

/-- What RAM holds after it has been filled with bytes that fit. -/
theorem Memory.read_fill {m : Memory} (hw : m.wf = true) {a : Nat} {bs : List Byte} (hfits : a + bs.length ≤ 30000) :
    (∀ k b, bs[k]? = some b → (m.fill a bs).read (a + k) = b) ∧
    (∀ x, x < a ∨ a + bs.length ≤ x → (m.fill a bs).read x = m.read x) := by
  refine ⟨fun k b hk => ?_, fun x => Memory.read_fill_outside bs m a x hw⟩
  obtain ⟨hlt, _⟩ := List.getElem?_eq_some_iff.mp hk
  exact Memory.read_fill_inside bs m a k b hw hk (show a + k ≤ 29999 by omega)

/-- Settles O59: in both ways RAM is filled, and nothing else is touched. -/
theorem loadAndConfigurationFillRam : Obligations.LoadAndConfigurationFillRam := by
  refine ⟨fun s file a bs hw hfile hfits => ?_, fun build a bs others hw hfits => ?_⟩
  · obtain ⟨hinside, houtside⟩ := Memory.read_fill hw hfits
    exact ⟨_, debug_load hw hfile hfits, hinside, houtside, ⟨rfl, rfl, rfl, rfl, rfl, rfl, rfl, rfl, rfl⟩, rfl⟩
  · obtain ⟨hinside, houtside⟩ := Memory.read_fill hw hfits
    exact ⟨hinside, houtside, rfl⟩

end Sys2Proof.Machine

/-! The picture (60_exceptions.md section 9): each of its parts read off the bytes of the video memory. -/

namespace Sys2Proof.Machine

/-! ## The bytes the picture is made of (R266 to R269) -/

theorem State.pixelBit_eq (s : State) (x : Fin 256) (y : Fin 192) :
    s.pixelBit x y = (s.mem.read (0x5a00 + 32 * y.val + x.val / 8)).getLsbD (x.val % 8) := by
  rw [Nat.add_assoc]
  rfl

/-- The byte that colours the 8 by 8 block of a pixel (R267). -/
def State.blockByte (s : State) (x : Fin 256) (y : Fin 192) : Byte :=
  s.videoByte (6144 + 32 * (y.val / 8) + x.val / 8)

/-- The bytes a pixel's colour is made of. -/
theorem State.pixel_eq (s : State) (x : Fin 256) (y : Fin 192) : s.pixel x y =
    if (s.blockByte x y).getLsbD 3 then
      Config.freeColour x.val y.val (s.blockByte x y) (s.pixelBit x y) s.blinkPeriod s.display.phase s.display.frames
    else if s.pixelBit x y != s.exchanged (s.blockByte x y) then highColour (s.blockByte x y)
    else lowColour (s.blockByte x y) := rfl

theorem State.blockByte_eq (s : State) (x : Fin 256) (y : Fin 192) :
    s.blockByte x y = s.mem.read (0x5a00 + 6144 + 32 * (y.val / 8) + x.val / 8) := by
  rw [Nat.add_assoc, Nat.add_assoc, ← Nat.add_assoc 6144]
  rfl

theorem State.exchanged_iff (s : State) (a : Byte) :
    s.exchanged a = true ↔ a.getLsbD 7 = true ∧ s.mem.read 0x7501 ≠ 0 ∧ s.display.phase = true := by
  rw [State.exchanged, Bool.and_eq_true, Bool.and_eq_true, bne_iff_ne, and_assoc]
  rfl

/-- The high colour shows where exactly one of the bitmap's bit and the exchange holds (R267, R269). -/
theorem bne_of_high : ∀ b e : Bool, (b = true ∧ ¬ e = true) ∨ (b = false ∧ e = true) → (b != e) = true := by
  decide

theorem not_bne_of_low : ∀ b e : Bool, (b = false ∧ ¬ e = true) ∨ (b = true ∧ e = true) → ¬ (b != e) = true := by
  decide

/-- With no reserved bit set the pixel has one of its block's two colours (R267, R269). -/
theorem State.pixel_of_plain (s : State) {x : Fin 256} {y : Fin 192} (h : (s.blockByte x y).getLsbD 3 = false) :
    s.pixel x y =
      if s.pixelBit x y != s.exchanged (s.blockByte x y) then highColour (s.blockByte x y)
      else lowColour (s.blockByte x y) := by
  rw [State.pixel_eq, if_neg (by rw [h]; decide)]

theorem State.border_of_plain (s : State) (h : (s.videoByte 6912).toNat < 8) :
    s.border = lowColour (s.videoByte 6912) := by
  have hreserved : ∀ b : Byte, b.toNat < 8 → b &&& 0xf8#8 = 0 := by decide
  rw [State.border, if_pos (hreserved _ h)]

/-! ## The place of the picture on the screen (R266) -/

theorem State.screen_of_pixel (s : State) {x : Fin 640} {y : Fin 480} {u : Fin 256} {v : Fin 192} {i j : Fin 2}
    (hx : x.val = Config.windowLeft.val + 2 * u.val + i.val) (hy : y.val = Config.windowTop.val + 2 * v.val + j.val) :
    s.screen x y = s.pixel u v := by
  have hi := i.isLt
  have hj := j.isLt
  rw [State.screen, dif_pos (by omega)]
  congr 1 <;> rw [Fin.ext_iff]
  · show (x.val - Config.windowLeft.val) / 2 = u.val
    omega
  · show (y.val - Config.windowTop.val) / 2 = v.val
    omega

theorem State.screen_of_border (s : State) {x : Fin 640} {y : Fin 480}
    (h : x.val < Config.windowLeft.val ∨ Config.windowLeft.val + 512 ≤ x.val ∨ y.val < Config.windowTop.val ∨
      Config.windowTop.val + 384 ≤ y.val) : s.screen x y = s.border := by
  rw [State.screen, dif_neg (by omega)]

/-! ## What the picture depends on (R270) -/

/-- Two states with the same video memory and the same state of the display. -/
structure SamePicture (s t : State) : Prop where
  videoByte : ∀ n, n < 6914 → t.videoByte n = s.videoByte n
  display : t.display = s.display

section
variable {s t : State} (h : SamePicture s t)
include h

theorem SamePicture.blinkPeriod : t.blinkPeriod = s.blinkPeriod := h.videoByte 6913 (by decide)

theorem SamePicture.exchanged (a : Byte) : t.exchanged a = s.exchanged a := by
  rw [State.exchanged, State.exchanged, h.blinkPeriod, h.display]

theorem SamePicture.pixelBit (x : Fin 256) (y : Fin 192) : t.pixelBit x y = s.pixelBit x y := by
  rw [State.pixelBit, State.pixelBit, h.videoByte _ (by omega)]

theorem SamePicture.blockByte (x : Fin 256) (y : Fin 192) : t.blockByte x y = s.blockByte x y :=
  h.videoByte _ (by omega)

theorem SamePicture.pixel (x : Fin 256) (y : Fin 192) : t.pixel x y = s.pixel x y := by
  simp only [State.pixel_eq, h.blockByte, h.pixelBit, h.exchanged, h.blinkPeriod, h.display]

theorem SamePicture.border : t.border = s.border := by
  simp only [State.border, h.videoByte 6912 (by decide), h.display]

theorem SamePicture.screen (x : Fin 640) (y : Fin 480) : t.screen x y = s.screen x y := by
  simp only [State.screen, h.pixel, h.border]

end

/-- Settles O60: the four parts are those of a pixel, the border, the screen, and what they depend on. -/
theorem pictureShowsVideoMemory : Obligations.PictureShowsVideoMemory := by
  refine ⟨fun s x y => ?_, fun s => s.border_of_plain, ?_, fun s t hbytes hdisplay => ?_⟩
  · dsimp only
    rw [← s.pixelBit_eq, ← s.blockByte_eq, ← s.exchanged_iff]
    intro hplain
    rw [s.pixel_of_plain hplain]
    refine ⟨fun hshown => ?_, fun hshown => ?_⟩
    · rw [if_pos]
      · rfl
      · exact bne_of_high _ _ hshown
    · rw [if_neg]
      · rfl
      · exact not_bne_of_low _ _ hshown
  · have hleft := Config.windowLeft.isLt
    have htop := Config.windowTop.isLt
    exact ⟨Config.windowLeft.val, Config.windowTop.val, by omega, by omega, fun s x y =>
      ⟨fun u v i j hx hy => s.screen_of_pixel hx hy, s.screen_of_border⟩⟩
  · have h : SamePicture s t := ⟨hbytes, hdisplay⟩
    exact ⟨h.pixel, h.border, h.screen⟩

end Sys2Proof.Machine
